-- ==== Sys2Proof/Word.lean ====
section
/-! DEFINITION. The word types of the core (spec/00_scope.md R5, R6, R8, R9): 8-bit bytes, 16-bit words, and the three
field widths of an opcode. All values are unsigned; bit 0 is the least significant bit. -/

namespace Sys2Proof

/-- A byte: a general register, a timer, a memory location (R20, R27, R28, R30). -/
abbrev Byte := BitVec 8

/-- A 16-bit word: `I`, `pc`, a stack entry, an opcode (R6, R9, R22). -/
abbrev Word := BitVec 16

/-- A 4-bit field: a register index, a key index, a sprite height, one nibble of an opcode (R9). -/
abbrev Nib := BitVec 4

/-- The 12-bit address field `nnn` (R9). -/
abbrev Imm12 := BitVec 12

end Sys2Proof
end

