-- ==== Sys2Proof/Syntax.lean ====
section
/-! DEFINITION. The instructions: one constructor per row of spec/opcode_table.json, in the table's order
(spec/30_encoding.md R94), the fall-through row UNMATCHED (R97) last. -/

namespace Sys2Proof

/-- An instruction with its decoded operand fields (R9, R91): `x`, `y` register indexes, `nn` and `nnn` immediates, `n`
a sprite height. -/
inductive Instr where
  /-- 00E0 `CLS` (R205). -/
  | cls
  /-- 00EE `RET` (R130). -/
  | ret
  /-- 1NNN `JP nnn` (R131). -/
  | jp (nnn : Imm12)
  /-- 2NNN `CALL nnn` (R132). -/
  | call (nnn : Imm12)
  /-- 3XNN `SE Vx, nn` (R134). -/
  | seImm (x : Nib) (nn : Byte)
  /-- 4XNN `SNE Vx, nn` (R135). -/
  | sneImm (x : Nib) (nn : Byte)
  /-- 5XY0 `SE Vx, Vy` (R136). -/
  | seReg (x y : Nib)
  /-- 6XNN `LD Vx, nn` (R152). -/
  | ldImm (x : Nib) (nn : Byte)
  /-- 7XNN `ADD Vx, nn` (R153). -/
  | addImm (x : Nib) (nn : Byte)
  /-- 8XY0 `LD Vx, Vy` (R154). -/
  | ldReg (x y : Nib)
  /-- 8XY1 `OR Vx, Vy` (R155). -/
  | orReg (x y : Nib)
  /-- 8XY2 `AND Vx, Vy` (R156). -/
  | andReg (x y : Nib)
  /-- 8XY3 `XOR Vx, Vy` (R157). -/
  | xorReg (x y : Nib)
  /-- 8XY4 `ADD Vx, Vy` (R158). -/
  | addReg (x y : Nib)
  /-- 8XY5 `SUB Vx, Vy` (R159). -/
  | subReg (x y : Nib)
  /-- 8XY6 `SHR Vx, Vy` (R161). -/
  | shr (x y : Nib)
  /-- 8XY7 `SUBN Vx, Vy` (R162). -/
  | subnReg (x y : Nib)
  /-- 8XYE `SHL Vx, Vy` (R163). -/
  | shl (x y : Nib)
  /-- 9XY0 `SNE Vx, Vy` (R137). -/
  | sneReg (x y : Nib)
  /-- ANNN `LD I, nnn` (R180). -/
  | ldI (nnn : Imm12)
  /-- BNNN `JP V0, nnn` (R133). -/
  | jpV0 (nnn : Imm12)
  /-- CXNN `RND Vx, nn` (R165). -/
  | rnd (x : Nib) (nn : Byte)
  /-- DXYN `DRW Vx, Vy, n` (R206). -/
  | drw (x y n : Nib)
  /-- EX9E `SKP Vx` (R223). -/
  | skp (x : Nib)
  /-- EXA1 `SKNP Vx` (R224). -/
  | sknp (x : Nib)
  /-- FX07 `LD Vx, DT` (R228). -/
  | ldVxDt (x : Nib)
  /-- FX0A `LD Vx, K` (R225). -/
  | ldKey (x : Nib)
  /-- FX15 `LD DT, Vx` (R229). -/
  | ldDt (x : Nib)
  /-- FX18 `LD ST, Vx` (R230). -/
  | ldSt (x : Nib)
  /-- FX1E `ADD I, Vx` (R181). -/
  | addI (x : Nib)
  /-- FX29 `LD F, Vx` (R182). -/
  | ldF (x : Nib)
  /-- FX33 `LD B, Vx` (R183). -/
  | ldB (x : Nib)
  /-- FX55 `LD [I], Vx` (R184). -/
  | storeRegs (x : Nib)
  /-- FX65 `LD Vx, [I]` (R185). -/
  | loadRegs (x : Nib)
  /-- `UNMATCHED` (R97): any opcode no other row selects, kept whole for its diagnostic. -/
  | unmatched (op : Word)
  deriving DecidableEq, Repr

end Sys2Proof
end

