-- ==== Sys2Proof/WellFormed.lean ====
section
/-! DEFINITION. Which instruction terms stand for an instruction of the hardware. Every operand field holds exactly the
values its type has (R91, R93), so the one check is on `unmatched`: its opcode must lie in the unmatched space, which
spec/30_encoding.md R98 lists exhaustively. -/

namespace Sys2Proof

/-- The unmatched space, part by part as R98 lists it. -/
def unmatchedSpace (op : Word) : Bool :=
  let a := op.toNat / 0x1000
  let nnn := op.toNat % 0x1000
  let nn := op.toNat % 0x100
  let d := op.toNat % 0x10
  (a == 0x0 && nnn != 0x0E0 && nnn != 0x0EE) ||
  (a == 0x5 && d != 0) ||
  (a == 0x8 && [0x8, 0x9, 0xA, 0xB, 0xC, 0xD, 0xF].contains d) ||
  (a == 0x9 && d != 0) ||
  (a == 0xE && !([0x9E, 0xA1].contains nn)) ||
  (a == 0xF && !([0x07, 0x0A, 0x15, 0x18, 0x1E, 0x29, 0x33, 0x55, 0x65].contains nn))

/-- The check, as a Bool. -/
def Instr.wellFormed : Instr → Bool
  | .unmatched op => unmatchedSpace op
  | _ => true

/-- An instruction of the hardware. -/
abbrev Instr.WellFormed (i : Instr) : Prop := i.wellFormed = true

end Sys2Proof
end

