-- ==== Sys2Proof/Config.lean ====
section
/-! DEFINITION. What the hardware fixes (spec/00_scope.md R5), the parameters the spec decides or gives a default for
(R7), and the one free value, the random byte of CXNN (spec/42_alu.md R164). -/

namespace Sys2Proof

/-- The number of font bytes (R5, R32): 16 glyphs of 5 bytes. -/
abbrev Config.fontBytes : Nat := 80

/-- A font (R32): the content of memory 0x000 to 0x04F at reset, the glyph of digit d at 5d. -/
abbrev Font := Vector Byte Config.fontBytes

/-- The configuration of a core (R7, R39): fixed for a run and kept across reset (R323). `State` carries it, so that a
statement over all states holds for every configuration. -/
structure Config where
  /-- `SHIFT_USES_VY` (R160): the source of 8XY6 and 8XYE is `V[y]` if true, `V[x]` if false. -/
  shiftUsesVy : Bool
  /-- `CPU_HZ` (R336): the target instruction rate; no rule reads it. -/
  cpuHz : Nat
  /-- `FONT_SET` (R32, U9): what memory 0x000 to 0x04F holds at reset. -/
  fontSet : Font
  deriving DecidableEq, Repr

/-- `MEM_SIZE` (R5). -/
abbrev Config.memSize : Nat := 4096

/-- `FETCH_LIMIT` (R5, R116): a `pc` of this value or more is never fetched from. -/
abbrev Config.fetchLimit : Nat := 4094

/-- `PROGRAM_START` (R5, R322): where `Load` writes and where `pc` starts. -/
abbrev Config.programStart : Nat := 0x200

/-- The longest byte sequence `Load` takes: 4096 - 0x200 (R258). -/
abbrev Config.maxRom : Nat := 3584

/-- `GLYPH_BYTES` (R5, R32). -/
abbrev Config.glyphBytes : Nat := 5

/-- `RET_ADVANCE`, which the spec decides to be 2 (R7, R130, D4); log entry 13. -/
def Config.retAdvance : Word := 2#16

/-- R32's default table of `FONT_SET`, digit by digit. PRESUMED: the source gives no byte of it (N1); log entry 5, unsafe. -/
def Font.defaultBytes : List Byte :=
  [0xF0#8, 0x90#8, 0x90#8, 0x90#8, 0xF0#8,
   0x20#8, 0x60#8, 0x20#8, 0x20#8, 0x70#8,
   0xF0#8, 0x10#8, 0xF0#8, 0x80#8, 0xF0#8,
   0xF0#8, 0x10#8, 0xF0#8, 0x10#8, 0xF0#8] ++
  [0x90#8, 0x90#8, 0xF0#8, 0x10#8, 0x10#8,
   0xF0#8, 0x80#8, 0xF0#8, 0x10#8, 0xF0#8,
   0xF0#8, 0x80#8, 0xF0#8, 0x90#8, 0xF0#8,
   0xF0#8, 0x10#8, 0x20#8, 0x40#8, 0x40#8] ++
  [0xF0#8, 0x90#8, 0xF0#8, 0x90#8, 0xF0#8,
   0xF0#8, 0x90#8, 0xF0#8, 0x10#8, 0xF0#8,
   0xF0#8, 0x90#8, 0xF0#8, 0x90#8, 0x90#8,
   0xE0#8, 0x90#8, 0xE0#8, 0x90#8, 0xE0#8] ++
  [0xF0#8, 0x80#8, 0x80#8, 0x80#8, 0xF0#8,
   0xE0#8, 0x90#8, 0x90#8, 0x90#8, 0xE0#8,
   0xF0#8, 0x80#8, 0xF0#8, 0x80#8, 0xF0#8,
   0xF0#8, 0x80#8, 0xF0#8, 0x80#8, 0x80#8]

/-- The default font (R32), which `State.reset` has as its parameter `FONT_SET`. -/
def Font.default : Font := ⟨Font.defaultBytes.toArray, rfl⟩

/-- `rnd8()` (R164): the free value of CXNN. Draw number n yields this byte; nothing constrains it; log entry 6. -/
opaque Config.rnd8 : Nat → Byte

end Sys2Proof
end

