-- ==== Sys2Proof/Machine/State.lean ====
section
/-! DEFINITION. The state of the core, as plain data (spec/10_state.md), the events that act on it and the outputs it gives
(spec/46_host_interface.md R250, R251), the causes of a fault (spec/60_exceptions.md R281), and the state after reset
(R40). -/

namespace Sys2Proof.Machine

/-- The causes of a fault with their recorded info (R281). An instruction raises one by `raiseFault`, which answers a NEXT
state whose `status` is `FAULTED` (R285); no step ends in `Outcome.fault` (log entry 1). All are the spec's own: safe. -/
inductive Fault where
  /-- Code 1, `MEM_RANGE` (R282): a data access of `k` bytes at `i` past the end of memory; raised by DXYN, FX33, FX55 and
  FX65. Safe. -/
  | memRange (i : Word) (k : Nat)
  /-- Code 2, `STACK_OVERFLOW` (R283): raised by 2NNN at `sp = 16`, with its `pc`. Safe. -/
  | stackOverflow (pc : Word)
  /-- Code 3, `STACK_UNDERFLOW` (R284): raised by 00EE at `sp = 0`, with its `pc`. Safe. -/
  | stackUnderflow (pc : Word)
  /-- Code 4, `KEY_RANGE` (R286): raised by EX9E and EXA1 when `V[x]` is above 15. Safe. -/
  | keyRange (v : Byte)
  /-- Code 5, `INDEX_OVERFLOW` (R287): raised by FX1E when `I + V[x]` is above 0xFFFF. Safe. -/
  | indexOverflow (i : Word) (v : Byte)
  deriving DecidableEq, Repr

/-- Why a step has no meaning. -/
inductive Refusal where
  /-- An instruction not modelled yet, raised by its arm of `exec`; no arm raises it. Safe. -/
  | notModelled (mnemonic : String)
  deriving DecidableEq, Repr

/-- The status of the core (R38). -/
inductive Status where
  /-- The core runs. -/
  | active
  /-- The program ended, or the host quit (R116, R257). -/
  | finished
  /-- An instruction faulted (R285). -/
  | faulted (f : Fault)
  deriving DecidableEq, Repr

/-- The state of one key (R35). -/
inductive KeyState where
  | pressed
  | released
  deriving DecidableEq, Repr

/-- The wait-for-key register (R29). -/
structure Wait where
  /-- The core waits for a key. -/
  active : Bool
  /-- The register the key goes to. -/
  target : Nib
  deriving DecidableEq, Repr

/-- The display: 32 rows of 64 pixels, `px[row][col]` (R33, R200). -/
abbrev Grid := Vector (Vector Bool 64) 32

/-- Main memory (R30): the cells that differ from what an unlisted address reads as (`Memory.unlisted`, which takes the font),
addresses strictly rising. -/
abbrev Memory := List Host.Cell

/-- The events that act on the core (R250). -/
inductive Event where
  /-- The instruction agent's step (R111). -/
  | step
  /-- The timer agent's step (R231). -/
  | tick
  /-- A key is pressed or released (R252). -/
  | key (k : Nib) (s : KeyState)
  /-- The host sets the input level `run` (R255). -/
  | run (b : Bool)
  /-- The host resets the core (R256). -/
  | reset
  /-- The host ends the run (R257). -/
  | quit
  /-- The host loads a program (R258). -/
  | load (bytes : List Byte)
  /-- The host consumes the display (R259). -/
  | consume
  /-- The host runs one opcode (R262). -/
  | exec (op : Word)
  deriving DecidableEq, Repr

/-- The two kinds of diagnostic (R299). -/
inductive DiagKind where
  | unknownOpcode
  | spuriousEndWait
  deriving DecidableEq, Repr

/-- An output event of the core (R251). -/
inductive Output where
  /-- `diag(kind, value)` (R299). -/
  | diag (kind : DiagKind) (value : Word)
  /-- The display snapshot that `Consume` delivers (R208, R259). -/
  | snapshot (px : Grid)
  /-- `LOAD_RANGE` (R288): a `Load` of `len` bytes was refused. -/
  | loadRange (len : Nat)
  deriving DecidableEq, Repr

/-- The whole state of the core. -/
structure State where
  /-- The general registers; `V[15]` is the flag register `VF` (R20, R21). -/
  V : Vector Byte 16
  /-- The index register (R22). -/
  I : Word
  /-- The program counter (R23). -/
  pc : Word
  /-- The return stack, its entries above `sp` stale (R25). -/
  stack : Vector Word 16
  /-- The stack pointer: the next free slot, 0 to 16 (R26). -/
  sp : Fin 17
  /-- The delay timer (R27). -/
  DT : Byte
  /-- The sound timer (R28). -/
  ST : Byte
  /-- The wait-for-key register (R29). -/
  wait : Wait
  /-- The status (R38). -/
  status : Status
  /-- Main memory (R30). -/
  mem : Memory
  /-- The pixels (R33). -/
  px : Grid
  /-- The display's dirty flag (R34). -/
  dirty : Bool
  /-- The keypad (R35). -/
  key : Vector KeyState 16
  /-- The key whose press last resolved a wait (R36). -/
  lastKey : Option Nib
  /-- The input level `run`, owned by the host (R37). -/
  run : Bool
  /-- A `Step` or an `Exec` has executed an instruction since the last reset (R258); log entry 10. -/
  started : Bool
  /-- The configuration (R7, R39). -/
  cfg : Config
  /-- The model's own: the number of CXNN draws so far, the index of the next free byte; log entry 6. -/
  draws : Nat
  /-- The model's own: the events the environment issues next, head first; log entry 2. -/
  pending : List Event
  /-- The model's own: the output events so far, newest first; log entry 8. -/
  outputs : List Output
  deriving DecidableEq, Repr

/-- The core right after creation (R40). DESIGN CHOICE, the spec gives no value: `run` (log entry 3, unsafe),
`cfg.shiftUsesVy` (log entry 4, unsafe), and the model's own `draws`, `pending`, `outputs` (log entries 6, 2, 8). PRESUMED:
`cfg.fontSet`, R32's default table (log entry 5, unsafe). -/
def State.reset : State where
  V := Vector.replicate 16 0x00#8
  I := 0x0000#16
  pc := 0x0200#16
  stack := Vector.replicate 16 0x0000#16
  sp := 0
  DT := 0x00#8
  ST := 0x00#8
  wait := { active := false, target := 0#4 }
  status := .active
  mem := []
  px := Vector.replicate 32 (Vector.replicate 64 false)
  dirty := false
  key := Vector.replicate 16 .released
  lastKey := none
  run := false
  started := false
  cfg := { shiftUsesVy := false, cpuHz := 600, fontSet := Font.default }
  draws := 0
  pending := []
  outputs := []

/-- What a meaning, an event and a step answer. -/
abbrev Outcome := Host.Outcome State Fault Refusal

end Sys2Proof.Machine
end

