-- ==== Sys2Proof/Machine/Ops.lean ====
section
/-! DEFINITION. The named operations over memory, registers, stack and outputs (spec/00_scope.md R10), fault entry
(spec/60_exceptions.md R285), and the movement of `pc` (spec/40_cycle.md R114). -/

namespace Sys2Proof.Machine

/-- The code number of a fault (R281). -/
def Fault.code : Fault → Nat
  | .memRange _ _ => 1
  | .stackOverflow _ => 2
  | .stackUnderflow _ => 3
  | .keyRange _ => 4
  | .indexOverflow _ _ => 5

/-- The code number of an output that is a named error: `LOAD_RANGE` is code 6, a refusal and no fault (R288). -/
def Output.errorCode : Output → Option Nat
  | .loadRange _ => some 6
  | .diag _ _ | .snapshot _ => none

/-- What an unlisted address reads as: the reset content of memory (R31), the font `f` at 0x000 to 0x04F and zero above. -/
def Memory.unlisted (f : Font) (a : Nat) : Byte := if h : a < Config.fontBytes then f[a] else 0x00#8

/-- The byte at an address: `mem[a]` of R10, with no check. The rules bound every address they read (R65, R66). -/
def Memory.read (f : Font) : Memory → Nat → Byte
  | [], a => Memory.unlisted f a
  | (k, b) :: m, a => if k = a then b else Memory.read f m a

/-- Memory with no cell listed at an address. -/
def Memory.erase (m : Memory) (a : Nat) : Memory := m.filter fun c => c.1 ≠ a

/-- Memory with a cell put before the first cell of a higher address. -/
def Memory.insert (a : Nat) (b : Byte) : Memory → Memory
  | [] => [(a, b)]
  | (k, c) :: m => if a < k then (a, b) :: (k, c) :: m else (k, c) :: Memory.insert a b m

/-- A byte stored: `mem[a] <- b` of R10. The canonical form is kept: a byte equal to what the unlisted address reads as is
not listed. -/
def Memory.write (f : Font) (m : Memory) (a : Nat) (b : Byte) : Memory :=
  if b = Memory.unlisted f a then Memory.erase m a else Memory.insert a b (Memory.erase m a)

/-- The canonical form: addresses strictly rising, no cell equal to what its address reads as unlisted. -/
abbrev Memory.wf (f : Font) (m : Memory) : Prop :=
  m.Pairwise (fun c d => c.1 < d.1) ∧ ∀ c ∈ m, c.2 ≠ Memory.unlisted f c.1

/-- Every listed address exists (R60). -/
abbrev Memory.inRange (m : Memory) : Prop := ∀ c ∈ m, c.1 < Config.memSize

/-- Bytes read at rising addresses (R63, R69). -/
def Memory.readBytes (f : Font) (m : Memory) : Nat → Nat → List Byte
  | _, 0 => []
  | a, n + 1 => m.read f a :: Memory.readBytes f m (a + 1) n

/-- Bytes stored at rising addresses (R63, R69). -/
def Memory.writeBytes (f : Font) (m : Memory) : Nat → List Byte → Memory
  | _, [] => m
  | a, b :: bs => Memory.writeBytes f (m.write f a b) (a + 1) bs

/-- The index of the flag register `VF` (R21). -/
def vf : Nib := 15#4

/-- `V[x]` read (R20). -/
def State.getV (s : State) (x : Nib) : Byte := s.V[x.toNat]'x.isLt

/-- `V[x] <- b` (R20). -/
def State.setV (s : State) (x : Nib) (b : Byte) : State := { s with V := s.V.set x.toNat b x.isLt }

/-- `I <- w` (R22). -/
def State.setI (s : State) (w : Word) : State := { s with I := w }

/-- `pc <- w` (R23). -/
def State.setPc (s : State) (w : Word) : State := { s with pc := w }

/-- The advance to the next instruction: `pc <- pc + 2` (R114). -/
def State.advance (s : State) : State := s.setPc (s.pc + 2#16)

/-- The advance of a skip instruction: by 4 if the condition holds, else by 2 (R114, R115). -/
def State.skipIf (s : State) (c : Bool) : State := s.setPc (s.pc + if c then 4#16 else 2#16)

/-- `DT <- b` (R27). -/
def State.setDT (s : State) (b : Byte) : State := { s with DT := b }

/-- `ST <- b` (R28). -/
def State.setST (s : State) (b : Byte) : State := { s with ST := b }

/-- `wait <- w` (R29). -/
def State.setWait (s : State) (w : Wait) : State := { s with wait := w }

/-- `status <- x` (R38). -/
def State.setStatus (s : State) (x : Status) : State := { s with status := x }

/-- Memory replaced. -/
def State.setMem (s : State) (m : Memory) : State := { s with mem := m }

/-- `mem[a]` (R10), of a core with its own font. -/
def State.readMem (s : State) (a : Nat) : Byte := s.mem.read s.cfg.fontSet a

/-- `n` bytes read at rising addresses (R63, R69). -/
def State.readBytes (s : State) (a n : Nat) : List Byte := s.mem.readBytes s.cfg.fontSet a n

/-- Bytes stored at rising addresses (R63, R69). -/
def State.storeBytes (s : State) (a : Nat) (bs : List Byte) : State := s.setMem (s.mem.writeBytes s.cfg.fontSet a bs)

/-- The display written: every clear and draw marks it dirty (R204). -/
def State.setPx (s : State) (g : Grid) : State := { s with px := g, dirty := true }

/-- The entry on top of the stack, `stack[sp - 1]` (R26). -/
def State.top (s : State) : Word := s.stack[s.sp.val - 1]'(by have := s.sp.isLt; omega)

/-- A push: `stack[sp] <- w; sp <- sp + 1` (R132). -/
def State.push (s : State) (w : Word) (h : s.sp.val < 16) : State :=
  { s with stack := s.stack.set s.sp.val w h, sp := ⟨s.sp.val + 1, by omega⟩ }

/-- A pop: `sp <- sp - 1`; the entry stays in the array (R25, R130). -/
def State.pop (s : State) : State :=
  { s with sp := ⟨s.sp.val - 1, by have := s.sp.isLt; omega⟩ }

/-- A free byte taken: the draw counter advances (R164). -/
def State.drawn (s : State) : State := { s with draws := s.draws + 1 }

/-- An output event recorded in the history (R299, R251). -/
def State.emit (s : State) (o : Output) : State := { s with outputs := o :: s.outputs }

/-- Fault entry (R285): `status <- FAULTED(cause, info)` and nothing else; the core stops. -/
def State.takeFault (s : State) (f : Fault) : State := s.setStatus (.faulted f)

/-- `raise Fault(cause, info)` (R10, R113, R285): the one operation by which an instruction takes a fault. There is no
return from a fault (R294); the `Reset` event alone leaves it. -/
def raiseFault (f : Fault) (s : State) : Outcome := .next (s.takeFault f)

/-- `Keypad.get(k)` (R221). -/
def State.keypadGet (s : State) (k : Nib) : KeyState := s.key[k.toNat]'k.isLt

/-- `Keypad.set(k, ks)` (R222). -/
def State.keypadSet (s : State) (k : Nib) (ks : KeyState) : State := { s with key := s.key.set k.toNat ks k.isLt }

/-- The beep output level (R233). -/
def State.beep (s : State) : Bool := s.ST != 0x00#8

end Sys2Proof.Machine
end

