-- ==== Sys2Proof/Machine/Operands.lean ====
section
/-! DEFINITION. Every operand form of the instructions (spec/30_encoding.md R93, spec/43_index_memory.md R186): immediates
zero-extended, the bounds test of a data access through `I` (spec/20_memory.md R66), the register block of FX55 and FX65,
the sprite rows of DXYN, the digits of FX33, the glyph address of FX29, and the source of the shifts (R160). -/

namespace Sys2Proof.Machine

/-- `nnn` zero-extended to 16 bits (R93). -/
def zext12 (nnn : Imm12) : Word := nnn.setWidth 16

/-- A data access of `k` bytes at `I` is legal (R66): the test is on the whole range and made even when `k` is 0. -/
def State.inRange (s : State) (k : Nat) : Bool := s.I.toNat + k ≤ Config.memSize

/-- The target of BNNN: `nnn + V[0]`, exact (R133). -/
def jumpV0Target (nnn : Imm12) (v0 : Byte) : Word := BitVec.ofNat 16 (nnn.toNat + v0.toNat)

/-- The source of 8XY6 and 8XYE: `V[y]` if `SHIFT_USES_VY`, else `V[x]` (R160). -/
def State.shiftSource (s : State) (x y : Nib) : Byte := if s.cfg.shiftUsesVy then s.getV y else s.getV x

/-- The exact sum `I + V[x]` of FX1E (R181). -/
def State.indexSum (s : State) (x : Nib) : Nat := s.I.toNat + (s.getV x).toNat

/-- The glyph address `V[x] * 5` (R182): exact, the whole of `V[x]`. -/
def glyphAddress (v : Byte) : Word := BitVec.ofNat 16 (v.toNat * Config.glyphBytes)

/-- The three decimal digits of a byte, hundreds first (R183). -/
def bcdDigits (v : Byte) : List Byte :=
  [BitVec.ofNat 8 (v.toNat / 100), BitVec.ofNat 8 (v.toNat / 10 % 10), BitVec.ofNat 8 (v.toNat % 10)]

/-- How many registers FX55 and FX65 move: `x + 1` (R184, R185). -/
def blockSize (x : Nib) : Nat := x.toNat + 1

/-- The registers `V[0]` to `V[x]` inclusive (R184). -/
def State.regBlock (s : State) (x : Nib) : List Byte := s.V.toList.take (blockSize x)

/-- The register file after `V[0]` to `V[x]` are loaded from memory at `I` (R185). -/
def State.loadedRegs (s : State) (x : Nib) : Vector Byte 16 :=
  Vector.ofFn fun j : Fin 16 => if j.val < blockSize x then s.readMem (s.I.toNat + j.val) else s.V[j.val]

/-- `I` after FX55 and FX65: `I + x + 1` (R184, R185). -/
def State.indexAfterBlock (s : State) (x : Nib) : Word := s.I + BitVec.ofNat 16 (blockSize x)

/-- The `n` sprite rows of DXYN, from memory at `I` (R206). -/
def State.spriteRows (s : State) (n : Nib) : List Byte := s.readBytes s.I.toNat n.toNat

/-- A register value is a key index (R223, R224). -/
def isKeyIndex (v : Byte) : Bool := v.toNat ≤ 15

/-- The key index in a register value that is one. -/
def keyIndex (v : Byte) : Nib := v.setWidth 4

end Sys2Proof.Machine
end

