-- ==== Sys2Proof/Machine/Flags.lean ====
section
/-! DEFINITION. Every flag computation (spec/10_state.md R21) and the arithmetic results they go with
(spec/42_alu.md R150), and the order of the two writes (R151). -/

namespace Sys2Proof.Machine

/-- A truth value as a flag byte, 0x01 or 0x00. -/
def flagByte (c : Bool) : Byte := if c then 0x01#8 else 0x00#8

/-- The carry of 8XY4: the exact sum exceeds 255 (R150, R158). -/
def carryFlag (a b : Byte) : Byte := flagByte (decide (a.toNat + b.toNat > 255))

/-- The borrow of `a - b` in 8XY5 and 8XY7: 1 when a borrow occurs (R150, R159, R162). -/
def borrowFlag (a b : Byte) : Byte := flagByte (decide (a.toNat < b.toNat))

/-- The flag of 8XY6: bit 0 of the source, 0x00 or 0x01 (R161). -/
def lsbFlag (src : Byte) : Byte := src &&& 0x01#8

/-- The flag of 8XYE: the source AND 0x80, so 0x00 or 0x80 (R163). -/
def msbFlag (src : Byte) : Byte := src &&& 0x80#8

/-- The sum modulo 256 (R150). -/
def addByte (a b : Byte) : Byte := a + b

/-- The difference modulo 256 (R150). -/
def subByte (a b : Byte) : Byte := a - b

/-- A logical shift right by one (R161). -/
def shrByte (src : Byte) : Byte := src >>> 1

/-- A logical shift left by one (R163). -/
def shlByte (src : Byte) : Byte := src <<< 1

/-- The result to `V[x]` first, the flag to `VF` second (R151): with `x = 15` the flag survives. -/
def State.setResultFlag (s : State) (x : Nib) (result flag : Byte) : State := (s.setV x result).setV vf flag

end Sys2Proof.Machine
end

