-- ==== Sys2Proof/Machine/Alu.lean ====
section
/-! DEFINITION. The register load, arithmetic and logic instructions (spec/42_alu.md). All advance `pc` by 2 and none can
fault. -/

namespace Sys2Proof.Machine

/-- 6XNN `LD Vx, nn` (R152). -/
def execLdImm (x : Nib) (nn : Byte) (s : State) : Outcome := .next (s.setV x nn).advance

/-- 7XNN `ADD Vx, nn` (R153): no flag. -/
def execAddImm (x : Nib) (nn : Byte) (s : State) : Outcome := .next (s.setV x (addByte (s.getV x) nn)).advance

/-- 8XY0 `LD Vx, Vy` (R154). -/
def execLdReg (x y : Nib) (s : State) : Outcome := .next (s.setV x (s.getV y)).advance

/-- 8XY1 `OR Vx, Vy` (R155). -/
def execOrReg (x y : Nib) (s : State) : Outcome := .next (s.setV x (s.getV x ||| s.getV y)).advance

/-- 8XY2 `AND Vx, Vy` (R156). -/
def execAndReg (x y : Nib) (s : State) : Outcome := .next (s.setV x (s.getV x &&& s.getV y)).advance

/-- 8XY3 `XOR Vx, Vy` (R157). -/
def execXorReg (x y : Nib) (s : State) : Outcome := .next (s.setV x (s.getV x ^^^ s.getV y)).advance

/-- 8XY4 `ADD Vx, Vy` (R158): `VF` is the carry. -/
def execAddReg (x y : Nib) (s : State) : Outcome :=
  let a := s.getV x
  let b := s.getV y
  .next (s.setResultFlag x (addByte a b) (carryFlag a b)).advance

/-- 8XY5 `SUB Vx, Vy` (R159): `VF` is 1 on borrow. -/
def execSubReg (x y : Nib) (s : State) : Outcome :=
  let a := s.getV x
  let b := s.getV y
  .next (s.setResultFlag x (subByte a b) (borrowFlag a b)).advance

/-- 8XY7 `SUBN Vx, Vy` (R162): `V[y] - V[x]`, `VF` is 1 on borrow. -/
def execSubnReg (x y : Nib) (s : State) : Outcome :=
  let a := s.getV x
  let b := s.getV y
  .next (s.setResultFlag x (subByte b a) (borrowFlag b a)).advance

/-- 8XY6 `SHR Vx, Vy` (R160, R161). -/
def execShr (x y : Nib) (s : State) : Outcome :=
  let src := s.shiftSource x y
  .next (s.setResultFlag x (shrByte src) (lsbFlag src)).advance

/-- 8XYE `SHL Vx, Vy` (R160, R163). -/
def execShl (x y : Nib) (s : State) : Outcome :=
  let src := s.shiftSource x y
  .next (s.setResultFlag x (shlByte src) (msbFlag src)).advance

/-- CXNN `RND Vx, nn` (R164, R165): the next free byte AND `nn`; the draw counter advances (log entry 6). -/
def execRnd (x : Nib) (nn : Byte) (s : State) : Outcome :=
  .next ((s.drawn).setV x (Config.rnd8 s.draws &&& nn)).advance

end Sys2Proof.Machine
end

