-- ==== Sys2Proof/Machine/Display.lean ====
section
/-! DEFINITION. The Display component (spec/44_display.md R200 to R204, R209) and its two instructions 00E0 (R205) and
DXYN (R206). -/

namespace Sys2Proof.Machine

/-- The pixel `px[row][col]` (R200). -/
def pixel (g : Grid) (row : Fin 32) (col : Fin 64) : Bool := g[row.val][col.val]

/-- The grid with one pixel changed (R202). -/
def setPixel (g : Grid) (row : Fin 32) (col : Fin 64) (b : Bool) : Grid :=
  g.set row.val (g[row.val].set col.val b)

/-- The row of a sprite row, wrapped modulo 32 (R202). -/
def wrapRow (r : Nat) : Fin 32 := ⟨r % 32, by omega⟩

/-- The column of a sprite column, wrapped modulo 64 (R202). -/
def wrapCol (c : Nat) : Fin 64 := ⟨c % 64, by omega⟩

/-- The blank grid. -/
def blankGrid : Grid := Vector.replicate 32 (Vector.replicate 64 false)

/-- One sprite bit drawn (R202): a 1 bit toggles the pixel at its wrapped place, and a pixel it finds set is a collision;
a 0 bit does nothing. -/
def drawBit (x y r c : Nat) (bit : Bool) (acc : Grid × Bool) : Grid × Bool :=
  if bit then
    let rr := wrapRow (y + r)
    let cc := wrapCol (x + c)
    (setPixel acc.1 rr cc (!pixel acc.1 rr cc), acc.2 || pixel acc.1 rr cc)
  else acc

/-- Columns `c`, `c + 1`, ... of a sprite row drawn, bit 7 being column 0 (R209). -/
def drawCols (x y r : Nat) (row : Byte) : List Nat → Grid × Bool → Grid × Bool
  | [], acc => acc
  | c :: cs, acc => drawCols x y r row cs (drawBit x y r c (row.getLsbD (7 - c)) acc)

/-- Sprite rows `r`, `r + 1`, ... drawn, the first byte on top (R209). -/
def drawRows (x y : Nat) : Nat → List Byte → Grid × Bool → Grid × Bool
  | _, [], acc => acc
  | r, row :: rows, acc => drawRows x y (r + 1) rows (drawCols x y r row [0, 1, 2, 3, 4, 5, 6, 7] acc)

/-- The grid and the collision of a draw at (`x`, `y`) (R202, R203). -/
def drawSprite (x y : Byte) (rows : List Byte) (g : Grid) : Grid × Bool :=
  drawRows x.toNat y.toNat 0 rows (g, false)

/-- `Display.clear()` (R201). -/
def State.displayClear (s : State) : State := s.setPx blankGrid

/-- `Display.draw(x, y, rows)`, the state after it (R202, R204). -/
def State.displayDraw (s : State) (x y : Byte) (rows : List Byte) : State := s.setPx (drawSprite x y rows s.px).1

/-- `Display.draw(x, y, rows)`, the collision it returns (R203). -/
def State.displayCollision (s : State) (x y : Byte) (rows : List Byte) : Bool := (drawSprite x y rows s.px).2

/-- 00E0 `CLS` (R205). -/
def execCls (s : State) : Outcome := .next s.displayClear.advance

/-- DXYN `DRW Vx, Vy, n` (R206): the bounds test first; rows and coordinates are read before `VF` is written. -/
def execDrw (x y n : Nib) (s : State) : Outcome :=
  if s.inRange n.toNat then
    let rows := s.spriteRows n
    let cx := s.getV x
    let cy := s.getV y
    .next (((s.displayDraw cx cy rows).setV vf (flagByte (s.displayCollision cx cy rows))).advance)
  else raiseFault (.memRange s.I n.toNat) s

end Sys2Proof.Machine
end

