-- ==== Sys2Proof/Machine/Flow.lean ====
section
/-! DEFINITION. The control transfer instructions (spec/41_flow.md) and the fall-through UNMATCHED (spec/30_encoding.md
R97). In every rule `pc` is the address of the instruction itself (R121). -/

namespace Sys2Proof.Machine

/-- 00EE `RET` (R130): the popped entry plus `RET_ADVANCE`. -/
def execRet (s : State) : Outcome :=
  if s.sp.val = 0 then raiseFault (.stackUnderflow s.pc) s
  else .next (s.pop.setPc (s.top + Config.retAdvance))

/-- 1NNN `JP nnn` (R131). -/
def execJp (nnn : Imm12) (s : State) : Outcome := .next (s.setPc (zext12 nnn))

/-- 2NNN `CALL nnn` (R132): pushes the address of the call itself. -/
def execCall (nnn : Imm12) (s : State) : Outcome :=
  if h : s.sp.val < 16 then .next ((s.push s.pc h).setPc (zext12 nnn))
  else raiseFault (.stackOverflow s.pc) s

/-- BNNN `JP V0, nnn` (R133). -/
def execJpV0 (nnn : Imm12) (s : State) : Outcome := .next (s.setPc (jumpV0Target nnn (s.getV 0#4)))

/-- 3XNN `SE Vx, nn` (R134). -/
def execSeImm (x : Nib) (nn : Byte) (s : State) : Outcome := .next (s.skipIf (s.getV x == nn))

/-- 4XNN `SNE Vx, nn` (R135). -/
def execSneImm (x : Nib) (nn : Byte) (s : State) : Outcome := .next (s.skipIf (s.getV x != nn))

/-- 5XY0 `SE Vx, Vy` (R136). -/
def execSeReg (x y : Nib) (s : State) : Outcome := .next (s.skipIf (s.getV x == s.getV y))

/-- 9XY0 `SNE Vx, Vy` (R137). -/
def execSneReg (x y : Nib) (s : State) : Outcome := .next (s.skipIf (s.getV x != s.getV y))

/-- `UNMATCHED` (R97): a no-operation with the diagnostic UNKNOWN_OPCODE (R299). -/
def execUnmatched (op : Word) (s : State) : Outcome := .next ((s.emit (.diag .unknownOpcode op)).advance)

end Sys2Proof.Machine
end

