-- ==== Sys2Proof/Machine/Index.lean ====
section
/-! DEFINITION. The index register and memory instructions (spec/43_index_memory.md). Every bounds test comes before the
first write (R119, R186). -/

namespace Sys2Proof.Machine

/-- ANNN `LD I, nnn` (R180). -/
def execLdI (nnn : Imm12) (s : State) : Outcome := .next (s.setI (zext12 nnn)).advance

/-- FX1E `ADD I, Vx` (R181): `INDEX_OVERFLOW` when the exact sum does not fit 16 bits. -/
def execAddI (x : Nib) (s : State) : Outcome :=
  if s.indexSum x > 0xFFFF then raiseFault (.indexOverflow s.I (s.getV x)) s
  else .next (s.setI (BitVec.ofNat 16 (s.indexSum x))).advance

/-- FX29 `LD F, Vx` (R182). -/
def execLdF (x : Nib) (s : State) : Outcome := .next (s.setI (glyphAddress (s.getV x))).advance

/-- FX33 `LD B, Vx` (R183): `I` is unchanged. -/
def execLdB (x : Nib) (s : State) : Outcome :=
  if s.inRange 3 then .next (s.storeBytes s.I.toNat (bcdDigits (s.getV x))).advance
  else raiseFault (.memRange s.I 3) s

/-- FX55 `LD [I], Vx` (R184). -/
def execStoreRegs (x : Nib) (s : State) : Outcome :=
  if s.inRange (blockSize x) then
    .next ((s.storeBytes s.I.toNat (s.regBlock x)).setI (s.indexAfterBlock x)).advance
  else raiseFault (.memRange s.I (blockSize x)) s

/-- The register file replaced by the loaded one (R185). -/
def State.loadBlock (s : State) (x : Nib) : State := { s with V := s.loadedRegs x }

/-- FX65 `LD Vx, [I]` (R185). -/
def execLoadRegs (x : Nib) (s : State) : Outcome :=
  if s.inRange (blockSize x) then .next ((s.loadBlock x).setI (s.indexAfterBlock x)).advance
  else raiseFault (.memRange s.I (blockSize x)) s

end Sys2Proof.Machine
end

