-- ==== Sys2Proof/Machine/Keypad.lean ====
section
/-! DEFINITION. The key skips, the wait for a key with `EndWait`, and the timer instructions
(spec/45_keypad_timers.md). -/

namespace Sys2Proof.Machine

/-- EX9E `SKP Vx` (R223): the key index is the value of `V[x]`; above 15 it is `KEY_RANGE` (R286). -/
def execSkp (x : Nib) (s : State) : Outcome :=
  if isKeyIndex (s.getV x) then .next (s.skipIf (s.keypadGet (keyIndex (s.getV x)) == .pressed))
  else raiseFault (.keyRange (s.getV x)) s

/-- EXA1 `SKNP Vx` (R224). -/
def execSknp (x : Nib) (s : State) : Outcome :=
  if isKeyIndex (s.getV x) then .next (s.skipIf (s.keypadGet (keyIndex (s.getV x)) == .released))
  else raiseFault (.keyRange (s.getV x)) s

/-- FX0A `LD Vx, K` (R225): enters the wait; `pc` and `V` are unchanged until `EndWait`. -/
def execLdKey (x : Nib) (s : State) : Outcome := .next (s.setWait { active := true, target := x })

/-- `EndWait(k)` (R226): the key goes to `V[wait.target]`, the wait ends with its target kept, `pc` advances; not waiting, a
diagnostic and no state change. -/
def State.endWait (s : State) (k : Nib) : State :=
  if s.wait.active then
    (((s.setV s.wait.target (k.setWidth 8)).setWait { s.wait with active := false })).advance
  else s.emit (.diag .spuriousEndWait (k.setWidth 16))

/-- FX07 `LD Vx, DT` (R228). -/
def execLdVxDt (x : Nib) (s : State) : Outcome := .next (s.setV x s.DT).advance

/-- FX15 `LD DT, Vx` (R229). -/
def execLdDt (x : Nib) (s : State) : Outcome := .next (s.setDT (s.getV x)).advance

/-- FX18 `LD ST, Vx` (R230). -/
def execLdSt (x : Nib) (s : State) : Outcome := .next (s.setST (s.getV x)).advance

end Sys2Proof.Machine
end

