-- ==== Sys2Proof/Machine/Events.lean ====
section
/-! DEFINITION. The instruction fetch and the `Step` (spec/40_cycle.md R111 to R118), the `Tick`
(spec/45_keypad_timers.md R231) and the host's events (spec/46_host_interface.md R253 to R264). -/

namespace Sys2Proof.Machine

/-- The core runs (R38). -/
def State.isActive (s : State) : Bool := s.status == .active

/-- The two bytes at `pc`, in memory order (R112). -/
def State.fetchBytes (s : State) : List Byte := [s.readMem s.pc.toNat, s.readMem (s.pc.toNat + 1)]

/-- The opcode at `pc`, big-endian (R62, R112). -/
def State.fetchWord (s : State) : Word := wordOfBytes (s.readMem s.pc.toNat) (s.readMem (s.pc.toNat + 1))

/-- An instruction is executed: `Load` is admitted no more (R258); log entry 10. -/
def State.begin (s : State) : State := { s with started := true }

/-- `Execute(op)` (R113): decode, then the instruction's rule. -/
def execute (op : Word) (s : State) : Outcome := exec (decode op) s.begin

/-- `Step` (R111), with the guards of R117 and R118: not issued while paused, no change unless active and not waiting; the
end of the run at `pc >= 4094` (R116); else fetch and execute. -/
def stepEvent (s : State) : Outcome :=
  if !s.run || !s.isActive || s.wait.active then .next s
  else if Config.fetchLimit ≤ s.pc.toNat then .next (s.setStatus .finished)
  else execute s.fetchWord s

/-- A timer counts down and stops at zero (R231, R232). -/
def countDown (t : Byte) : Byte := if t = 0x00#8 then t else t - 1#8

/-- `Tick` (R231, R234). -/
def State.tick (s : State) : State :=
  if s.isActive && s.run then (s.setDT (countDown s.DT)).setST (countDown s.ST) else s

/-- `last_key <- k` (R36). -/
def State.setLastKey (s : State) (k : Option Nib) : State := { s with lastKey := k }

/-- `Key(k, Pressed)` (R253). -/
def State.keyPressed (s : State) (k : Nib) : State :=
  if !s.isActive then s
  else if !s.wait.active then s.keypadSet k .pressed
  else if s.lastKey ≠ some k then (s.endWait k).setLastKey (some k)
  else s

/-- `Key(k, Released)` (R254). -/
def State.keyReleased (s : State) (k : Nib) : State :=
  if !s.isActive then s
  else if !s.wait.active then s.keypadSet k .released
  else s.setLastKey none

/-- `Run(b)` (R255): the level is set in every status (R264). -/
def State.setRun (s : State) (b : Bool) : State := { s with run := b }

/-- The core right after creation with a configuration (R7, R320): its parameters are arguments, `FONT_SET` among them. -/
def State.create (c : Config) : State := { State.reset with cfg := c }

/-- `Reset` (R256, R320, R323): every piece of state back to its reset value; the level `run`, the configuration and the
model's own fields stay. -/
def State.doReset (s : State) : State :=
  { State.create s.cfg with run := s.run, draws := s.draws, pending := s.pending, outputs := s.outputs }

/-- `Quit` (R257). -/
def State.quit (s : State) : State := if s.isActive then s.setStatus .finished else s

/-- `Load(bytes)` (R258, R74, R288): admitted only while active and before the first `Step` or `Exec` since reset; too long a
sequence is refused whole, with no byte written, and the refusal is an output (log entry 9). -/
def State.load (s : State) (bytes : List Byte) : State :=
  if !s.isActive || s.started then s
  else if bytes.length > Config.maxRom then s.emit (.loadRange bytes.length)
  else s.storeBytes Config.programStart bytes

/-- `Consume` (R259): the snapshot is delivered and the dirty flag cleared, in one event. -/
def State.consume (s : State) : State :=
  if s.isActive && s.dirty then { s.emit (.snapshot s.px) with dirty := false } else s

/-- `Exec(op)` (R262): admitted only where a `Step` would execute an instruction, but for the level `run`. -/
def execEvent (op : Word) (s : State) : Outcome :=
  if s.isActive && !s.wait.active && decide (s.pc.toNat < Config.fetchLimit) then execute op s else .next s

/-- One event acts on the core (R250). -/
def handle (e : Event) (s : State) : Outcome :=
  match e with
  | .step => stepEvent s
  | .tick => .next s.tick
  | .key k .pressed => .next (s.keyPressed k)
  | .key k .released => .next (s.keyReleased k)
  | .run b => .next (s.setRun b)
  | .reset => .next s.doReset
  | .quit => .next s.quit
  | .load bytes => .next (s.load bytes)
  | .consume => .next s.consume
  | .exec op => execEvent op s

/-- The pending events replaced. -/
def State.setPending (s : State) (es : List Event) : State := { s with pending := es }

/-- The next event and the state it acts on: the head of the pending events, and a `Step` when none is pending (log
entry 2). -/
def nextEvent (s : State) : Outcome :=
  match s.pending with
  | [] => stepEvent s
  | e :: es => handle e (s.setPending es)

/-- The address where `withFetchWord` places an instruction: `pc` where a fetch is possible, else the program start. -/
def State.placeAt (s : State) : Word :=
  if s.pc.toNat < Config.fetchLimit then s.pc else BitVec.ofNat 16 Config.programStart

/-- Bytes placed where the next step fetches, and everything that a fetch takes: `pc` below the fetch limit, active, running,
not waiting, no event pending, past the window of `Load` (log entry 11). -/
def State.placeFetch (s : State) (bytes : List Byte) : State :=
  { s.storeBytes s.placeAt.toNat bytes with
    pc := s.placeAt
    status := .active
    run := true
    started := true
    wait := { s.wait with active := false }
    pending := [] }

end Sys2Proof.Machine
end

