-- ==== Sys2Proof/Safety.lean ====
section
/-! DEFINITION. The terms that statements are made in: which parts of the state two states agree on, what it is for an
instruction to complete, when the agents are enabled (spec/40_cycle.md R118, spec/45_keypad_timers.md R234), the end of a
run (R120), the invariant of every step (spec/10_state.md R43), the table of faults (spec/60_exceptions.md R281) and the
table of what each instruction writes. -/

namespace Sys2Proof.Machine

/-- The parts of the state. -/
inductive Part where
  | regs | index | pc | stack | delayTimer | soundTimer | wait | status | memory | pixels | dirty | keypad | lastKey
  | run | started | config | draws | pending | outputs
  deriving DecidableEq, Repr

/-- Two states agree on a part: registers, bytes of memory, keys and pixels each as they read. -/
def Part.same (p : Part) (s t : State) : Prop :=
  match p with
  | .regs => ∀ r, t.getV r = s.getV r
  | .index => t.I = s.I
  | .pc => t.pc = s.pc
  | .stack => t.sp = s.sp ∧ ∀ k (h : k < 16), t.stack[k] = s.stack[k]
  | .delayTimer => t.DT = s.DT
  | .soundTimer => t.ST = s.ST
  | .wait => t.wait = s.wait
  | .status => t.status = s.status
  | .memory => ∀ a, t.readMem a = s.readMem a
  | .pixels => ∀ row col, pixel t.px row col = pixel s.px row col
  | .dirty => t.dirty = s.dirty
  | .keypad => ∀ k, t.keypadGet k = s.keypadGet k
  | .lastKey => t.lastKey = s.lastKey
  | .run => t.run = s.run
  | .started => t.started = s.started
  | .config => t.cfg = s.cfg
  | .draws => t.draws = s.draws
  | .pending => t.pending = s.pending
  | .outputs => t.outputs = s.outputs

/-- Every part but the listed ones is unchanged from `s` to `t`. -/
def unchangedBut (ps : List Part) (s t : State) : Prop := ∀ p : Part, p ∉ ps → p.same s t

/-- The instruction answers a next state with the property `P`. -/
def Completes (i : Instr) (s : State) (P : State → Prop) : Prop := ∃ t, exec i s = .next t ∧ P t

/-- The event answers a next state with the property `P`. -/
def Handles (e : Event) (s : State) (P : State → Prop) : Prop := ∃ t, handle e s = .next t ∧ P t

/-- The instruction takes the fault `f` (R285): a next state in which only `status` changed, to `FAULTED(f)`. -/
def Faults (i : Instr) (s : State) (f : Fault) : Prop :=
  Completes i s fun t => t.status = .faulted f ∧ unchangedBut [.status] s t

/-- The row with this mask and match (R94): every opcode it selects decodes to the instruction that `i` takes from the
opcode, its operands at their places (R91). -/
abbrev Decodes (mask value : Word) (i : Word → Instr) : Prop := ∀ op : Word, op &&& mask = value → decode op = i op

/-- The `Step` agent is enabled (R118). -/
abbrev State.stepEnabled (s : State) : Prop := s.status = .active ∧ s.run = true ∧ s.wait.active = false

/-- The `Tick` agent is enabled (R234). -/
abbrev State.tickEnabled (s : State) : Prop := s.status = .active ∧ s.run = true

/-- A run is over (R120). -/
abbrev State.over (s : State) : Prop := s.status ≠ .active

/-- A good end of a run (R120, R303). -/
abbrev State.goodEnd (s : State) : Prop := s.status = .finished

/-- A 1 bit of the sprite of `n` rows at `I`, drawn at (`x`, `y`), addresses the pixel at `row`, `col` (R202, R209). -/
def State.spriteHits (s : State) (x y : Byte) (n : Nat) (row : Fin 32) (col : Fin 64) : Prop :=
  ∃ r c : Nat, r < n ∧ c < 8 ∧ (s.readMem (s.I.toNat + r)).getLsbD (7 - c) = true ∧
    (y.toNat + r) % 32 = row.val ∧ (x.toNat + c) % 64 = col.val

/-- Every piece of the spec's state has its reset value (R40, R31), `run` aside, which no reset writes (R37). -/
structure State.HasResetValues (s : State) : Prop where
  regs : ∀ r, s.getV r = 0x00#8
  index : s.I = 0x0000#16
  pc : s.pc = 0x0200#16
  stack : ∀ k (h : k < 16), s.stack[k] = 0x0000#16
  sp : s.sp.val = 0
  timers : s.DT = 0x00#8 ∧ s.ST = 0x00#8
  wait : s.wait = { active := false, target := 0#4 }
  font : ∀ a (h : a < 80), s.readMem a = s.cfg.fontSet[a]
  zero : ∀ a, 0x050 ≤ a → a < 0x1000 → s.readMem a = 0x00#8
  pixels : ∀ row col, pixel s.px row col = false
  dirty : s.dirty = false
  keypad : ∀ k, s.keypadGet k = .released
  lastKey : s.lastKey = none
  status : s.status = .active
  beep : s.beep = false

/-- The invariant of the core (R43, with the canonical form of memory, and what R258 says of a core not started yet). -/
structure State.Inv (s : State) : Prop where
  /-- Memory is in its canonical form. -/
  memWf : s.mem.wf s.cfg.fontSet
  /-- Memory lists only addresses that exist (R60). -/
  memInRange : s.mem.inRange
  /-- `pc` is at most 0x10FE (R24, R43). -/
  pcBound : s.pc.toNat ≤ 0x10FE
  /-- Every entry in use is below 4094 (R43). -/
  stackBound : ∀ k (h : k < 16), k < s.sp.val → s.stack[k].toNat < 4094
  /-- While waiting, `pc` is below 4094 (R43). -/
  waitBound : s.wait.active = true → s.pc.toNat < 4094
  /-- Before the first instruction since reset, `pc` is 0x200 and the core does not wait (R258). -/
  notStarted : s.started = false → s.pc = 0x0200#16 ∧ s.wait.active = false

/-- The fault an instruction takes in a state, from the table of R281; no other instruction can fault. -/
def faultOf (i : Instr) (s : State) : Option Fault :=
  match i with
  | .drw _ _ n => if s.I.toNat + n.toNat > 4096 then some (.memRange s.I n.toNat) else none
  | .ldB _ => if s.I.toNat + 3 > 4096 then some (.memRange s.I 3) else none
  | .storeRegs x => if s.I.toNat + x.toNat + 1 > 4096 then some (.memRange s.I (x.toNat + 1)) else none
  | .loadRegs x => if s.I.toNat + x.toNat + 1 > 4096 then some (.memRange s.I (x.toNat + 1)) else none
  | .call _ => if s.sp.val = 16 then some (.stackOverflow s.pc) else none
  | .ret => if s.sp.val = 0 then some (.stackUnderflow s.pc) else none
  | .skp x => if (s.getV x).toNat > 15 then some (.keyRange (s.getV x)) else none
  | .sknp x => if (s.getV x).toNat > 15 then some (.keyRange (s.getV x)) else none
  | .addI x => if s.I.toNat + (s.getV x).toNat > 0xFFFF then some (.indexOverflow s.I (s.getV x)) else none
  | .cls | .jp _ | .seImm _ _ | .sneImm _ _ | .seReg _ _ | .ldImm _ _ | .addImm _ _ | .ldReg _ _ | .orReg _ _
  | .andReg _ _ | .xorReg _ _ | .addReg _ _ | .subReg _ _ | .shr _ _ | .subnReg _ _ | .shl _ _ | .sneReg _ _ | .ldI _
  | .jpV0 _ | .rnd _ _ | .ldVxDt _ | .ldKey _ | .ldDt _ | .ldSt _ | .ldF _ | .unmatched _ => none

/-- The parts an instruction that does not fault may write, from the "written by" columns of spec/10_state.md (R20 to R36)
and R114. -/
def partsWritten (i : Instr) : List Part :=
  match i with
  | .cls => [.pixels, .dirty, .pc]
  | .ret | .call _ => [.stack, .pc]
  | .jp _ | .jpV0 _ | .seImm _ _ | .sneImm _ _ | .seReg _ _ | .sneReg _ _ | .skp _ | .sknp _ => [.pc]
  | .ldImm _ _ | .addImm _ _ | .ldReg _ _ | .orReg _ _ | .andReg _ _ | .xorReg _ _ | .addReg _ _ | .subReg _ _
  | .shr _ _ | .subnReg _ _ | .shl _ _ | .ldVxDt _ => [.regs, .pc]
  | .rnd _ _ => [.regs, .draws, .pc]
  | .ldI _ | .addI _ | .ldF _ => [.index, .pc]
  | .drw _ _ _ => [.pixels, .dirty, .regs, .pc]
  | .ldKey _ => [.wait]
  | .ldDt _ => [.delayTimer, .pc]
  | .ldSt _ => [.soundTimer, .pc]
  | .ldB _ => [.memory, .pc]
  | .storeRegs _ => [.memory, .index, .pc]
  | .loadRegs _ => [.regs, .index, .pc]
  | .unmatched _ => [.outputs, .pc]

/-- The registers an instruction may write: its destination, `VF` where R21 lists it, the block of FX65. The register that
FX0A names is written later, by `EndWait`. -/
def writesReg (i : Instr) (r : Nib) : Prop :=
  match i with
  | .ldImm x _ | .addImm x _ | .ldReg x _ | .orReg x _ | .andReg x _ | .xorReg x _ | .rnd x _ | .ldVxDt x => r = x
  | .addReg x _ | .subReg x _ | .shr x _ | .subnReg x _ | .shl x _ => r = x ∨ r = vf
  | .drw _ _ _ => r = vf
  | .loadRegs x => r.toNat < blockSize x
  | .cls | .ret | .jp _ | .call _ | .seImm _ _ | .sneImm _ _ | .seReg _ _ | .sneReg _ _ | .ldI _ | .jpV0 _ | .skp _
  | .sknp _ | .ldKey _ | .ldDt _ | .ldSt _ | .addI _ | .ldF _ | .ldB _ | .storeRegs _ | .unmatched _ => False

/-- The bytes of memory an instruction stores to (R65): three at `I` for FX33, `x + 1` at `I` for FX55, no other. -/
def writesByte (i : Instr) (s : State) (a : Nat) : Prop :=
  match i with
  | .ldB _ => s.I.toNat ≤ a ∧ a < s.I.toNat + 3
  | .storeRegs x => s.I.toNat ≤ a ∧ a < s.I.toNat + blockSize x
  | .cls | .ret | .jp _ | .call _ | .seImm _ _ | .sneImm _ _ | .seReg _ _ | .ldImm _ _ | .addImm _ _ | .ldReg _ _
  | .orReg _ _ | .andReg _ _ | .xorReg _ _ | .addReg _ _ | .subReg _ _ | .shr _ _ | .subnReg _ _ | .shl _ _
  | .sneReg _ _ | .ldI _ | .jpV0 _ | .rnd _ _ | .drw _ _ _ | .skp _ | .sknp _ | .ldVxDt _ | .ldKey _ | .ldDt _
  | .ldSt _ | .addI _ | .ldF _ | .loadRegs _ | .unmatched _ => False

/-- The stack entry an instruction writes (R25): only 2NNN, at `sp`. -/
def writesEntry (i : Instr) (s : State) (k : Nat) : Prop :=
  match i with
  | .call _ => k = s.sp.val
  | .cls | .ret | .jp _ | .seImm _ _ | .sneImm _ _ | .seReg _ _ | .ldImm _ _ | .addImm _ _ | .ldReg _ _
  | .orReg _ _ | .andReg _ _ | .xorReg _ _ | .addReg _ _ | .subReg _ _ | .shr _ _ | .subnReg _ _ | .shl _ _
  | .sneReg _ _ | .ldI _ | .jpV0 _ | .rnd _ _ | .drw _ _ _ | .skp _ | .sknp _ | .ldVxDt _ | .ldKey _ | .ldDt _
  | .ldSt _ | .addI _ | .ldF _ | .ldB _ | .storeRegs _ | .loadRegs _ | .unmatched _ => False

/-- The pixels an instruction may write (R33): all for 00E0, those its sprite addresses for DXYN. -/
def writesPixel (i : Instr) (s : State) (row : Fin 32) (col : Fin 64) : Prop :=
  match i with
  | .cls => True
  | .drw x y n => s.spriteHits (s.getV x) (s.getV y) n.toNat row col
  | .ret | .jp _ | .call _ | .seImm _ _ | .sneImm _ _ | .seReg _ _ | .ldImm _ _ | .addImm _ _ | .ldReg _ _
  | .orReg _ _ | .andReg _ _ | .xorReg _ _ | .addReg _ _ | .subReg _ _ | .shr _ _ | .subnReg _ _ | .shl _ _
  | .sneReg _ _ | .ldI _ | .jpV0 _ | .rnd _ _ | .skp _ | .sknp _ | .ldVxDt _ | .ldKey _ | .ldDt _ | .ldSt _ | .addI _
  | .ldF _ | .ldB _ | .storeRegs _ | .loadRegs _ | .unmatched _ => False

/-- Where an instruction that does not fault leaves `pc`, from the table of R114 (`pc` its value when the instruction
began). -/
def pcAfter (i : Instr) (s : State) : Nat :=
  let skip (c : Prop) [Decidable c] : Nat := if c then s.pc.toNat + 4 else s.pc.toNat + 2
  match i with
  | .jp nnn => nnn.toNat
  | .call nnn => nnn.toNat
  | .jpV0 nnn => nnn.toNat + (s.getV 0#4).toNat
  | .ret => s.top.toNat + 2
  | .ldKey _ => s.pc.toNat
  | .seImm x nn => skip (s.getV x = nn)
  | .sneImm x nn => skip (s.getV x ≠ nn)
  | .seReg x y => skip (s.getV x = s.getV y)
  | .sneReg x y => skip (s.getV x ≠ s.getV y)
  | .skp x => skip (s.keypadGet ((s.getV x).setWidth 4) = .pressed)
  | .sknp x => skip (s.keypadGet ((s.getV x).setWidth 4) = .released)
  | .cls | .ldImm _ _ | .addImm _ _ | .ldReg _ _ | .orReg _ _ | .andReg _ _ | .xorReg _ _ | .addReg _ _ | .subReg _ _
  | .shr _ _ | .subnReg _ _ | .shl _ _ | .ldI _ | .rnd _ _ | .drw _ _ _ | .ldVxDt _ | .ldDt _ | .ldSt _ | .addI _
  | .ldF _ | .ldB _ | .storeRegs _ | .loadRegs _ | .unmatched _ => s.pc.toNat + 2

end Sys2Proof.Machine
end

