-- ==== Sys2Proof/Certificates/Slice0/Obligations.lean ====
section
/-! DEFINITION. The statements for the provers. Each formalises the rules of spec/ that its docstring names; the terms are
those of Sys2Proof/Safety.lean. A statement that an instruction `Completes` has as its conclusion that `exec` answers a
next state, for every state and operands that meet its hypotheses. -/

open Sys2Proof Sys2Proof.Machine

/-! ## Encoding -/

/-- Words written out from the encodings of R94, S1 and the vectors decode to the instructions they stand for. -/
def Obligations.SampleWordsDecode : Prop :=
  decode 0x6ABC#16 = .ldImm 0xA#4 0xBC#8 ∧ decode 0xA789#16 = .ldI 0x789#12 ∧ decode 0x8BA0#16 = .ldReg 0xB#4 0xA#4 ∧
  decode 0x1200#16 = .jp 0x200#12 ∧ decode 0xFB15#16 = .ldDt 0xB#4 ∧ decode 0xE39E#16 = .skp 0x3#4 ∧
  decode 0xD121#16 = .drw 0x1#4 0x2#4 0x1#4 ∧ decode 0x00EE#16 = .ret ∧ decode 0x5121#16 = .unmatched 0x5121#16

/-- Decoding the opcode, or the bytes, of a well-formed instruction gives the instruction back (R94, R95, R62). -/
def Obligations.DecodeEncodeRoundTrip : Prop :=
  ∀ i : Instr, i.WellFormed →
    decode (encode i) = i ∧ ∀ rest, decodeBytes (encodeBytes i ++ rest) = .ok (i, rest)

/-- Every opcode decodes to a well-formed instruction whose opcode it is: no word is dropped and none has two meanings
(R94, R95, R98). -/
def Obligations.EncodeDecodeRoundTrip : Prop :=
  ∀ op : Word, (decode op).WellFormed ∧ encode (decode op) = op

/-- A row of R94 that selects an opcode is the row of the instruction it decodes to; an opcode is unmatched exactly when no
row selects it (R94, R95, R97). -/
def Obligations.RowsSelectByMaskAndMatch : Prop :=
  ∀ op : Word,
    (∀ row ∈ opcodeRows, op &&& row.1 = row.2 → row = (rowMask (decode op), rowMatch (decode op))) ∧
    ((∀ row ∈ opcodeRows, op &&& row.1 ≠ row.2) ↔ decode op = .unmatched op)

/-! ## The step -/

/-- R111, R112: enabled and below the fetch limit, a step with no event pending runs the instruction that the two bytes at
`pc` decode to, on the state marked as started (log entry 10). -/
def Obligations.StepRunsTheDecodedInstruction : Prop :=
  ∀ (s : State) (i : Instr), s.pending = [] → s.stepEnabled → s.pc.toNat < 4094 →
    decodeBytes [s.readMem s.pc.toNat, s.readMem (s.pc.toNat + 1)] = .ok (i, []) →
    step s = exec i { s with started := true }

/-- R111, R62: the opcode a step runs has the byte at `pc` as its high byte and the byte at `pc + 1` as its low byte. -/
def Obligations.FetchIsBigEndian : Prop :=
  ∀ (s : State) (op : Word), s.pending = [] → s.stepEnabled → s.pc.toNat < 4094 →
    op.toNat = (s.readMem s.pc.toNat).toNat * 256 + (s.readMem (s.pc.toNat + 1)).toNat →
    step s = exec (decode op) { s with started := true }

/-- R116: a step at `pc >= 4094` fetches nothing and finishes the run. -/
def Obligations.StepFinishesAtFetchLimit : Prop :=
  ∀ s : State, s.pending = [] → s.stepEnabled → 4094 ≤ s.pc.toNat →
    ∃ t, step s = .next t ∧ t.status = .finished ∧ unchangedBut [.status] s t

/-- R117, R118: a step that is not enabled (not active, paused, or waiting for a key) changes nothing. -/
def Obligations.StepDisabledChangesNothing : Prop :=
  ∀ s : State, s.pending = [] → (s.status ≠ .active ∨ s.run = false ∨ s.wait.active = true) → step s = .next s

/-- The model's own (log entry 2): a pending event acts before the instruction agent does. -/
def Obligations.StepTakesThePendingEvent : Prop :=
  ∀ (s : State) (e : Event) (es : List Event), s.pending = e :: es → step s = handle e { s with pending := es }

/-- R113: `Execute` is total, and so is a step: it always answers a next state, never a fault or a refusal of the model (a
fault of the spec is a next state, log entry 1). -/
def Obligations.StepAlwaysAnswersNext : Prop :=
  (∀ (i : Instr) (s : State), ∃ t, exec i s = .next t) ∧ ∀ s : State, ∃ t, step s = .next t

/-! ## Control transfer -/

/-- R131: 1NNN. -/
def Obligations.JumpSetsPc : Prop :=
  (Decodes 0xF000#16 0x1000#16 fun op => .jp (fieldNNN op)) ∧
  ∀ (nnn : Imm12) (s : State),
    Completes (.jp nnn) s fun t => t.pc.toNat = nnn.toNat ∧ unchangedBut [.pc] s t

/-- R133: BNNN; the sum is exact. -/
def Obligations.JumpV0AddsWithoutWrap : Prop :=
  (Decodes 0xF000#16 0xB000#16 fun op => .jpV0 (fieldNNN op)) ∧
  ∀ (nnn : Imm12) (s : State),
    Completes (.jpV0 nnn) s fun t => t.pc.toNat = nnn.toNat + (s.getV 0#4).toNat ∧ unchangedBut [.pc] s t

/-- R132: 2NNN pushes its own address and jumps; with a full stack it faults. -/
def Obligations.CallPushesAndJumps : Prop :=
  (Decodes 0xF000#16 0x2000#16 fun op => .call (fieldNNN op)) ∧
  ∀ (nnn : Imm12) (s : State),
    (s.sp.val < 16 →
      Completes (.call nnn) s fun t =>
        t.sp.val = s.sp.val + 1 ∧
        (∀ k (h : k < 16), t.stack[k] = if k = s.sp.val then s.pc else s.stack[k]) ∧
        t.pc.toNat = nnn.toNat ∧ unchangedBut [.pc, .stack] s t) ∧
    (s.sp.val = 16 → Faults (.call nnn) s (.stackOverflow s.pc))

/-- R130: 00EE pops and lands two past the popped entry, which stays in the array; with an empty stack it faults. -/
def Obligations.ReturnPopsAndAdvances : Prop :=
  (Decodes 0xFFFF#16 0x00EE#16 fun _ => .ret) ∧
  ∀ s : State,
    (∀ (k : Nat) (h : k < 16), s.sp.val = k + 1 →
      Completes .ret s fun t =>
        t.sp.val = k ∧ (∀ j (h : j < 16), t.stack[j] = s.stack[j]) ∧ t.pc = s.stack[k] + 2#16 ∧
        unchangedBut [.pc, .stack] s t) ∧
    (s.sp.val = 0 → Faults .ret s (.stackUnderflow s.pc))

/-- R134, R135: 3XNN and 4XNN. -/
def Obligations.SkipOnImmediate : Prop :=
  (Decodes 0xF000#16 0x3000#16 fun op => .seImm (fieldX op) (fieldNN op)) ∧
  (Decodes 0xF000#16 0x4000#16 fun op => .sneImm (fieldX op) (fieldNN op)) ∧
  ∀ (x : Nib) (nn : Byte) (s : State),
    (Completes (.seImm x nn) s fun t =>
      t.pc = (if (s.getV x).toNat = nn.toNat then s.pc + 4#16 else s.pc + 2#16) ∧ unchangedBut [.pc] s t) ∧
    (Completes (.sneImm x nn) s fun t =>
      t.pc = (if (s.getV x).toNat ≠ nn.toNat then s.pc + 4#16 else s.pc + 2#16) ∧ unchangedBut [.pc] s t)

/-- R136, R137: 5XY0 and 9XY0, whose low nibble must be 0. -/
def Obligations.SkipOnRegisters : Prop :=
  (Decodes 0xF00F#16 0x5000#16 fun op => .seReg (fieldX op) (fieldY op)) ∧
  (Decodes 0xF00F#16 0x9000#16 fun op => .sneReg (fieldX op) (fieldY op)) ∧
  ∀ (x y : Nib) (s : State),
    (∀ op : Word, (fieldA op = 0x5#4 ∨ fieldA op = 0x9#4) → fieldN op ≠ 0#4 → decode op = .unmatched op) ∧
    (Completes (.seReg x y) s fun t =>
      t.pc = (if (s.getV x).toNat = (s.getV y).toNat then s.pc + 4#16 else s.pc + 2#16) ∧ unchangedBut [.pc] s t) ∧
    (Completes (.sneReg x y) s fun t =>
      t.pc = (if (s.getV x).toNat ≠ (s.getV y).toNat then s.pc + 4#16 else s.pc + 2#16) ∧ unchangedBut [.pc] s t)

/-- R97: an opcode no row selects is a no-operation with a diagnostic, which the model records (R299, log entry 8). -/
def Obligations.UnmatchedIsNoOperation : Prop :=
  ∀ (op : Word) (s : State), (∀ row ∈ opcodeRows, op &&& row.1 ≠ row.2) →
    decode op = .unmatched op ∧
    Completes (.unmatched op) s fun t =>
      t.pc = s.pc + 2#16 ∧ t.outputs = .diag .unknownOpcode op :: s.outputs ∧ unchangedBut [.pc, .outputs] s t

/-- R138: a call and a return resume after the call, with the stack pointer as before it and no entry in use lost. -/
def Obligations.CallThenReturnResumes : Prop :=
  ∀ (nnn : Imm12) (s : State), s.sp.val < 16 →
    ∃ t u, exec (.call nnn) s = .next t ∧ exec .ret t = .next u ∧ u.pc = s.pc + 2#16 ∧ u.sp = s.sp ∧
      (∀ k (h : k < 16), k < s.sp.val → u.stack[k] = s.stack[k]) ∧ unchangedBut [.pc, .stack] s u

/-! ## Registers, arithmetic and logic -/

/-- What a register instruction that writes no flag leaves: `V[x]` the value, `pc` advanced, all else as before. -/
def Obligations.LoadAndAddImmediate : Prop :=
  (Decodes 0xF000#16 0x6000#16 fun op => .ldImm (fieldX op) (fieldNN op)) ∧
  (Decodes 0xF000#16 0x7000#16 fun op => .addImm (fieldX op) (fieldNN op)) ∧
  ∀ (x : Nib) (nn : Byte) (s : State),
    (Completes (.ldImm x nn) s fun t =>
      t.getV x = nn ∧ (∀ r, r ≠ x → t.getV r = s.getV r) ∧ t.pc = s.pc + 2#16 ∧ unchangedBut [.regs, .pc] s t) ∧
    (Completes (.addImm x nn) s fun t =>
      (t.getV x).toNat = ((s.getV x).toNat + nn.toNat) % 256 ∧ (∀ r, r ≠ x → t.getV r = s.getV r) ∧
      t.pc = s.pc + 2#16 ∧ unchangedBut [.regs, .pc] s t)

/-- R154 to R157: 8XY0, 8XY1, 8XY2, 8XY3, bit by bit; `VF` is not written but as the destination. -/
def Obligations.CopyAndBitwise : Prop :=
  (Decodes 0xF00F#16 0x8000#16 fun op => .ldReg (fieldX op) (fieldY op)) ∧
  (Decodes 0xF00F#16 0x8001#16 fun op => .orReg (fieldX op) (fieldY op)) ∧
  (Decodes 0xF00F#16 0x8002#16 fun op => .andReg (fieldX op) (fieldY op)) ∧
  (Decodes 0xF00F#16 0x8003#16 fun op => .xorReg (fieldX op) (fieldY op)) ∧
  ∀ (x y : Nib) (s : State),
    ∀ p ∈ [(Instr.ldReg x y, fun _ b : Bool => b), (.orReg x y, or), (.andReg x y, and), (.xorReg x y, xor)],
      Completes p.1 s fun t =>
        (∀ j, (t.getV x).getLsbD j = p.2 ((s.getV x).getLsbD j) ((s.getV y).getLsbD j)) ∧
        (∀ r, r ≠ x → t.getV r = s.getV r) ∧ t.pc = s.pc + 2#16 ∧ unchangedBut [.regs, .pc] s t

/-- R158: 8XY4; the flag is the carry of the exact sum and survives when `x` is 15. -/
def Obligations.AddSetsCarry : Prop :=
  (Decodes 0xF00F#16 0x8004#16 fun op => .addReg (fieldX op) (fieldY op)) ∧
  ∀ (x y : Nib) (s : State),
    Completes (.addReg x y) s fun t =>
      t.getV 15#4 = (if (s.getV x).toNat + (s.getV y).toNat > 255 then 1#8 else 0#8) ∧
      (x ≠ 15#4 → (t.getV x).toNat = ((s.getV x).toNat + (s.getV y).toNat) % 256) ∧
      (∀ r, r ≠ x → r ≠ 15#4 → t.getV r = s.getV r) ∧ t.pc = s.pc + 2#16 ∧ unchangedBut [.regs, .pc] s t

/-- R159, R162: 8XY5 and 8XY7; the flag is 1 on borrow and survives when `x` is 15. -/
def Obligations.SubtractSetsBorrow : Prop :=
  (Decodes 0xF00F#16 0x8005#16 fun op => .subReg (fieldX op) (fieldY op)) ∧
  (Decodes 0xF00F#16 0x8007#16 fun op => .subnReg (fieldX op) (fieldY op)) ∧
  ∀ (x y : Nib) (s : State),
    (Completes (.subReg x y) s fun t =>
      t.getV 15#4 = (if (s.getV x).toNat < (s.getV y).toNat then 1#8 else 0#8) ∧
      (x ≠ 15#4 → ((t.getV x).toNat : Int) = ((s.getV x).toNat - (s.getV y).toNat : Int) % 256) ∧
      (∀ r, r ≠ x → r ≠ 15#4 → t.getV r = s.getV r) ∧ t.pc = s.pc + 2#16 ∧ unchangedBut [.regs, .pc] s t) ∧
    (Completes (.subnReg x y) s fun t =>
      t.getV 15#4 = (if (s.getV y).toNat < (s.getV x).toNat then 1#8 else 0#8) ∧
      (x ≠ 15#4 → ((t.getV x).toNat : Int) = ((s.getV y).toNat - (s.getV x).toNat : Int) % 256) ∧
      (∀ r, r ≠ x → r ≠ 15#4 → t.getV r = s.getV r) ∧ t.pc = s.pc + 2#16 ∧ unchangedBut [.regs, .pc] s t)

/-- R160, R161: 8XY6, for both values of `SHIFT_USES_VY`. -/
def Obligations.ShiftRightSetsLowBit : Prop :=
  (Decodes 0xF00F#16 0x8006#16 fun op => .shr (fieldX op) (fieldY op)) ∧
  ∀ (x y : Nib) (s : State) (src : Byte),
    src = (if s.cfg.shiftUsesVy = true then s.getV y else s.getV x) →
    Completes (.shr x y) s fun t =>
      (t.getV 15#4).toNat = src.toNat % 2 ∧ (x ≠ 15#4 → (t.getV x).toNat = src.toNat / 2) ∧
      (∀ r, r ≠ x → r ≠ 15#4 → t.getV r = s.getV r) ∧ t.pc = s.pc + 2#16 ∧ unchangedBut [.regs, .pc] s t

/-- R160, R163: 8XYE, for both values of `SHIFT_USES_VY`; the flag is 0x80 or 0x00. -/
def Obligations.ShiftLeftSetsRawHighBit : Prop :=
  (Decodes 0xF00F#16 0x800E#16 fun op => .shl (fieldX op) (fieldY op)) ∧
  ∀ (x y : Nib) (s : State) (src : Byte),
    src = (if s.cfg.shiftUsesVy = true then s.getV y else s.getV x) →
    Completes (.shl x y) s fun t =>
      t.getV 15#4 = (if 128 ≤ src.toNat then 0x80#8 else 0x00#8) ∧
      (x ≠ 15#4 → (t.getV x).toNat = src.toNat * 2 % 256) ∧
      (∀ r, r ≠ x → r ≠ 15#4 → t.getV r = s.getV r) ∧ t.pc = s.pc + 2#16 ∧ unchangedBut [.regs, .pc] s t

/-- R164, R165: CXNN writes the next free byte AND `nn`, whatever that byte is, and takes a fresh one each time
(log entry 6). -/
def Obligations.RandomIsMaskedFreeByte : Prop :=
  (Decodes 0xF000#16 0xC000#16 fun op => .rnd (fieldX op) (fieldNN op)) ∧
  ∀ (x : Nib) (nn : Byte) (s : State),
    Completes (.rnd x nn) s fun t =>
      (∀ j, (t.getV x).getLsbD j = ((Config.rnd8 s.draws).getLsbD j && nn.getLsbD j)) ∧ t.draws = s.draws + 1 ∧
      (∀ r, r ≠ x → t.getV r = s.getV r) ∧ t.pc = s.pc + 2#16 ∧ unchangedBut [.regs, .draws, .pc] s t

/-! ## Index register and memory -/

/-- R180, R182: ANNN and FX29; the product is exact, of the whole of `V[x]`. -/
def Obligations.LoadIndexAndGlyphAddress : Prop :=
  (Decodes 0xF000#16 0xA000#16 fun op => .ldI (fieldNNN op)) ∧
  (Decodes 0xF0FF#16 0xF029#16 fun op => .ldF (fieldX op)) ∧
  (∀ (nnn : Imm12) (s : State),
    Completes (.ldI nnn) s fun t =>
      t.I.toNat = nnn.toNat ∧ t.pc = s.pc + 2#16 ∧ unchangedBut [.index, .pc] s t) ∧
  ∀ (x : Nib) (s : State),
    Completes (.ldF x) s fun t =>
      t.I.toNat = (s.getV x).toNat * 5 ∧ t.pc = s.pc + 2#16 ∧ unchangedBut [.index, .pc] s t

/-- R181: FX1E stores the exact sum, or faults when it does not fit 16 bits. -/
def Obligations.AddToIndexIsExact : Prop :=
  (Decodes 0xF0FF#16 0xF01E#16 fun op => .addI (fieldX op)) ∧
  ∀ (x : Nib) (s : State),
    (s.I.toNat + (s.getV x).toNat ≤ 0xFFFF →
      Completes (.addI x) s fun t =>
        t.I.toNat = s.I.toNat + (s.getV x).toNat ∧ t.pc = s.pc + 2#16 ∧ unchangedBut [.index, .pc] s t) ∧
    (s.I.toNat + (s.getV x).toNat > 0xFFFF → Faults (.addI x) s (.indexOverflow s.I (s.getV x)))

/-- R183: FX33 stores hundreds, tens and ones at `I`, and no other byte; past the end of memory it faults. -/
def Obligations.BcdStoresThreeDigits : Prop :=
  (Decodes 0xF0FF#16 0xF033#16 fun op => .ldB (fieldX op)) ∧
  ∀ (x : Nib) (s : State),
    (s.I.toNat + 3 ≤ 4096 →
      Completes (.ldB x) s fun t =>
        (t.readMem s.I.toNat).toNat = (s.getV x).toNat / 100 ∧
        (t.readMem (s.I.toNat + 1)).toNat = (s.getV x).toNat / 10 % 10 ∧
        (t.readMem (s.I.toNat + 2)).toNat = (s.getV x).toNat % 10 ∧
        (∀ a, a < s.I.toNat ∨ s.I.toNat + 3 ≤ a → t.readMem a = s.readMem a) ∧
        t.pc = s.pc + 2#16 ∧ unchangedBut [.memory, .pc] s t) ∧
    (s.I.toNat + 3 > 4096 → Faults (.ldB x) s (.memRange s.I 3))

/-- R184: FX55 stores `V[0]` to `V[x]` at `I`, and no other byte, and advances `I`; past the end of memory it faults. -/
def Obligations.StoreRegistersAdvancesIndex : Prop :=
  (Decodes 0xF0FF#16 0xF055#16 fun op => .storeRegs (fieldX op)) ∧
  ∀ (x : Nib) (s : State),
    (s.I.toNat + x.toNat + 1 ≤ 4096 →
      Completes (.storeRegs x) s fun t =>
        (∀ r : Nib, r.toNat ≤ x.toNat → t.readMem (s.I.toNat + r.toNat) = s.getV r) ∧
        (∀ a, a < s.I.toNat ∨ s.I.toNat + x.toNat + 1 ≤ a → t.readMem a = s.readMem a) ∧
        t.I.toNat = s.I.toNat + x.toNat + 1 ∧ t.pc = s.pc + 2#16 ∧ unchangedBut [.memory, .index, .pc] s t) ∧
    (s.I.toNat + x.toNat + 1 > 4096 → Faults (.storeRegs x) s (.memRange s.I (x.toNat + 1)))

/-- R185: FX65 loads `V[0]` to `V[x]` from `I` and advances `I`; past the end of memory it faults. -/
def Obligations.LoadRegistersAdvancesIndex : Prop :=
  (Decodes 0xF0FF#16 0xF065#16 fun op => .loadRegs (fieldX op)) ∧
  ∀ (x : Nib) (s : State),
    (s.I.toNat + x.toNat + 1 ≤ 4096 →
      Completes (.loadRegs x) s fun t =>
        (∀ r : Nib, t.getV r = if r.toNat ≤ x.toNat then s.readMem (s.I.toNat + r.toNat) else s.getV r) ∧
        t.I.toNat = s.I.toNat + x.toNat + 1 ∧ t.pc = s.pc + 2#16 ∧ unchangedBut [.regs, .index, .pc] s t) ∧
    (s.I.toNat + x.toNat + 1 > 4096 → Faults (.loadRegs x) s (.memRange s.I (x.toNat + 1)))

/-- R71: a store is seen by the next fetch: after FX55 over the next instruction's two bytes, the step runs the stored word. -/
def Obligations.StoreIsSeenByNextFetch : Prop :=
  ∀ (x : Nib) (s : State), s.pending = [] → s.stepEnabled → 1 ≤ x.toNat → s.pc.toNat < 4092 →
    s.I.toNat = s.pc.toNat + 2 → s.I.toNat + x.toNat + 1 ≤ 4096 →
    ∃ t, exec (.storeRegs x) s = .next t ∧
      step t = exec (decode (wordOfBytes (s.getV 0#4) (s.getV 1#4))) { t with started := true }

/-- R30: two memories in canonical form that read alike are the same memory, whatever the font (log entry 7). -/
def Obligations.CanonicalMemoriesThatReadAlikeAreEqual : Prop :=
  ∀ (f : Font) (m m' : Memory), m.wf f → m'.wf f → (∀ a, m.read f a = m'.read f a) → m = m'

/-! ## Display -/

/-- R205, R201: 00E0. -/
def Obligations.ClearBlanksTheDisplay : Prop :=
  (Decodes 0xFFFF#16 0x00E0#16 fun _ => .cls) ∧
  ∀ s : State,
    Completes .cls s fun t =>
      (∀ row col, pixel t.px row col = false) ∧ t.dirty = true ∧ t.pc = s.pc + 2#16 ∧
      unchangedBut [.pixels, .dirty, .pc] s t

/-- R206, R202, R203: DXYN toggles exactly the pixels that a 1 bit of the sprite addresses, wrapping, `VF` is 1 exactly when
one of them was set, and the display is dirty; past the end of memory it faults. -/
def Obligations.DrawTogglesAddressedPixels : Prop :=
  (Decodes 0xF000#16 0xD000#16 fun op => .drw (fieldX op) (fieldY op) (fieldN op)) ∧
  ∀ (x y n : Nib) (s : State),
    (s.I.toNat + n.toNat ≤ 4096 →
      Completes (.drw x y n) s fun t =>
        (∀ row col, s.spriteHits (s.getV x) (s.getV y) n.toNat row col → pixel t.px row col = !pixel s.px row col) ∧
        (∀ row col, ¬ s.spriteHits (s.getV x) (s.getV y) n.toNat row col → pixel t.px row col = pixel s.px row col) ∧
        (t.getV 15#4 = 0#8 ∨ t.getV 15#4 = 1#8) ∧
        (t.getV 15#4 = 1#8 ↔
          ∃ row col, s.spriteHits (s.getV x) (s.getV y) n.toNat row col ∧ pixel s.px row col = true) ∧
        (∀ r, r ≠ 15#4 → t.getV r = s.getV r) ∧ t.dirty = true ∧ t.pc = s.pc + 2#16 ∧
        unchangedBut [.pixels, .dirty, .regs, .pc] s t) ∧
    (s.I.toNat + n.toNat > 4096 → Faults (.drw x y n) s (.memRange s.I n.toNat))

/-- R207: the same sprite drawn twice at the same coordinates restores the pixels; the second draw reports a collision
exactly when a pixel under a 1 bit was 0 before the first. -/
def Obligations.DrawTwiceRestoresThePixels : Prop :=
  ∀ (x y n : Nib) (s : State), x ≠ 15#4 → y ≠ 15#4 → s.I.toNat + n.toNat ≤ 4096 →
    ∃ t u, exec (.drw x y n) s = .next t ∧ exec (.drw x y n) t = .next u ∧
      (∀ row col, pixel u.px row col = pixel s.px row col) ∧ t.dirty = true ∧ u.dirty = true ∧
      (u.getV 15#4 = 1#8 ↔
        ∃ row col, s.spriteHits (s.getV x) (s.getV y) n.toNat row col ∧ pixel s.px row col = false)

/-! ## Keypad, wait for key, timers -/

/-- R223, R224: EX9E and EXA1 on the key whose index is the value of `V[x]`; a value above 15 faults. -/
def Obligations.SkipOnKeyState : Prop :=
  (Decodes 0xF0FF#16 0xE09E#16 fun op => .skp (fieldX op)) ∧
  (Decodes 0xF0FF#16 0xE0A1#16 fun op => .sknp (fieldX op)) ∧
  ∀ (x : Nib) (s : State),
    (∀ k : Nib, (s.getV x).toNat = k.toNat →
      (Completes (.skp x) s fun t =>
        t.pc = (if s.keypadGet k = .pressed then s.pc + 4#16 else s.pc + 2#16) ∧ unchangedBut [.pc] s t) ∧
      (Completes (.sknp x) s fun t =>
        t.pc = (if s.keypadGet k = .released then s.pc + 4#16 else s.pc + 2#16) ∧ unchangedBut [.pc] s t)) ∧
    ((s.getV x).toNat > 15 → Faults (.skp x) s (.keyRange (s.getV x)) ∧ Faults (.sknp x) s (.keyRange (s.getV x)))

/-- R225: FX0A enters the wait and changes nothing else, `pc` and the registers included; a `Step` then changes nothing. -/
def Obligations.WaitForKeyHoldsPc : Prop :=
  (Decodes 0xF0FF#16 0xF00A#16 fun op => .ldKey (fieldX op)) ∧
  ∀ (x : Nib) (s : State),
    Completes (.ldKey x) s fun t =>
      t.wait.active = true ∧ t.wait.target = x ∧ unchangedBut [.wait] s t ∧ handle .step t = .next t

/-- R228, R229, R230: FX07, FX15 and FX18. -/
def Obligations.TimerInstructionsMoveBytes : Prop :=
  (Decodes 0xF0FF#16 0xF007#16 fun op => .ldVxDt (fieldX op)) ∧
  (Decodes 0xF0FF#16 0xF015#16 fun op => .ldDt (fieldX op)) ∧
  (Decodes 0xF0FF#16 0xF018#16 fun op => .ldSt (fieldX op)) ∧
  ∀ (x : Nib) (s : State),
    (Completes (.ldVxDt x) s fun t =>
      t.getV x = s.DT ∧ (∀ r, r ≠ x → t.getV r = s.getV r) ∧ t.pc = s.pc + 2#16 ∧ unchangedBut [.regs, .pc] s t) ∧
    (Completes (.ldDt x) s fun t =>
      t.DT = s.getV x ∧ t.pc = s.pc + 2#16 ∧ unchangedBut [.delayTimer, .pc] s t) ∧
    (Completes (.ldSt x) s fun t =>
      t.ST = s.getV x ∧ (t.beep = true ↔ s.getV x ≠ 0#8) ∧ t.pc = s.pc + 2#16 ∧ unchangedBut [.soundTimer, .pc] s t)

/-- R231, R232, R234: `Tick` counts both timers down, each stopping at zero, exactly while active and running. -/
def Obligations.TickCountsDownToZero : Prop :=
  ∀ s : State, Handles .tick s fun t =>
    (s.tickEnabled → t.DT.toNat = s.DT.toNat - 1 ∧ t.ST.toNat = s.ST.toNat - 1 ∧
      unchangedBut [.delayTimer, .soundTimer] s t) ∧
    (¬ s.tickEnabled → unchangedBut [] s t)

/-- R226: `EndWait(k)` gives the key to the waiting register and advances `pc`; not waiting, it changes no
state and gives a diagnostic, which the model records (log entry 8). -/
def Obligations.EndWaitDeliversTheKey : Prop :=
  ∀ (k : Nib) (s : State),
    (s.wait.active = true →
      ((s.endWait k).getV s.wait.target).toNat = k.toNat ∧
      (∀ r, r ≠ s.wait.target → (s.endWait k).getV r = s.getV r) ∧
      (s.endWait k).wait.active = false ∧ (s.endWait k).wait.target = s.wait.target ∧
      (s.endWait k).pc = s.pc + 2#16 ∧ unchangedBut [.regs, .wait, .pc] s (s.endWait k)) ∧
    (s.wait.active = false →
      (s.endWait k).outputs = .diag .spuriousEndWait (k.setWidth 16) :: s.outputs ∧
      unchangedBut [.outputs] s (s.endWait k))

/-- S4, R226: after FX0A, a press of a key that was not last delivered writes the key to the target and leaves `pc` two past
the FX0A. -/
def Obligations.KeyPressCompletesTheWait : Prop :=
  ∀ (x k : Nib) (s : State), s.status = .active → s.lastKey ≠ some k →
    ∃ t u, exec (.ldKey x) s = .next t ∧ handle (.key k .pressed) t = .next u ∧
      (u.getV x).toNat = k.toNat ∧ u.pc = s.pc + 2#16 ∧ u.wait.active = false ∧ u.lastKey = some k ∧
      ∀ j, u.keypadGet j = s.keypadGet j

/-- R227: a waiting core that meets the invariant leaves the wait only by a key press or a reset; `pc`, the registers, `I`,
the stack, memory, the display's pixels and the keypad do not change meanwhile. -/
def Obligations.WaitEndsOnlyByPressOrReset : Prop :=
  ∀ (s t : State) (e : Event), s.Inv → s.status = .active → s.wait.active = true → e ≠ .reset →
    (∀ k, e ≠ .key k .pressed) → handle e s = .next t →
    unchangedBut [.delayTimer, .soundTimer, .lastKey, .run, .status, .dirty, .outputs] s t

/-! ## The host's events -/

/-- R253: `Key(k, Pressed)` in each of its four cases. -/
def Obligations.KeyPressByWaitAndLastKey : Prop :=
  ∀ (k : Nib) (s : State), Handles (.key k .pressed) s fun t =>
    (s.status ≠ .active → unchangedBut [] s t) ∧
    (s.status = .active → s.wait.active = false →
      (∀ j, t.keypadGet j = if j = k then .pressed else s.keypadGet j) ∧ unchangedBut [.keypad] s t) ∧
    (s.status = .active → s.wait.active = true → s.lastKey ≠ some k →
      (t.getV s.wait.target).toNat = k.toNat ∧ (∀ r, r ≠ s.wait.target → t.getV r = s.getV r) ∧
      t.wait.active = false ∧ t.wait.target = s.wait.target ∧ t.pc = s.pc + 2#16 ∧ t.lastKey = some k ∧
      unchangedBut [.regs, .wait, .pc, .lastKey] s t) ∧
    (s.status = .active → s.wait.active = true → s.lastKey = some k → unchangedBut [] s t)

/-- R254: `Key(k, Released)`. -/
def Obligations.KeyReleaseByWait : Prop :=
  ∀ (k : Nib) (s : State), Handles (.key k .released) s fun t =>
    (s.status ≠ .active → unchangedBut [] s t) ∧
    (s.status = .active → s.wait.active = false →
      (∀ j, t.keypadGet j = if j = k then .released else s.keypadGet j) ∧ unchangedBut [.keypad] s t) ∧
    (s.status = .active → s.wait.active = true → t.lastKey = none ∧ unchangedBut [.lastKey] s t)

/-- R256, R40: `Reset` gives every piece of state its reset value from any status, and leaves the level `run` and the
configuration. -/
def Obligations.ResetRestoresEveryValue : Prop :=
  ∀ s : State, Handles .reset s fun t => t.HasResetValues ∧ t.run = s.run ∧ t.cfg = s.cfg

/-- R40, R7: the state after creation, with every configuration, so with every font. -/
def Obligations.CreationHasTheResetValues : Prop :=
  State.reset.HasResetValues ∧ ∀ c : Config, (State.create c).HasResetValues ∧ (State.create c).cfg = c

/-- R257: `Quit`. -/
def Obligations.QuitFinishesAnActiveCore : Prop :=
  ∀ s : State, Handles .quit s fun t =>
    (s.status = .active → t.status = .finished ∧ unchangedBut [.status] s t) ∧
    (s.status ≠ .active → unchangedBut [] s t)

/-- R258, R288: `Load` writes the whole sequence from 0x200 up and no other byte, or, when it is longer than 3584 bytes, no
byte at all, with `LOAD_RANGE`, code 6, as an output (log entry 9); it is admitted only while active and before the first instruction
since reset (log entry 10). -/
def Obligations.LoadWritesTheProgramOrNothing : Prop :=
  ∀ (bytes : List Byte) (s : State), Handles (.load bytes) s fun t =>
    (s.status = .active → s.started = false → bytes.length ≤ 3584 →
      (∀ j (h : j < bytes.length), t.readMem (0x200 + j) = bytes[j]) ∧
      (∀ a, a < 0x200 ∨ 0x200 + bytes.length ≤ a → t.readMem a = s.readMem a) ∧ unchangedBut [.memory] s t) ∧
    (s.status = .active → s.started = false → bytes.length > 3584 →
      t.outputs = .loadRange bytes.length :: s.outputs ∧ (Output.loadRange bytes.length).errorCode = some 6 ∧
      unchangedBut [.outputs] s t) ∧
    (s.status ≠ .active ∨ s.started = true → unchangedBut [] s t)

/-- R259: `Consume` delivers a copy of the pixels, as an output (log entry 8), and clears the dirty flag when it is set. -/
def Obligations.ConsumeDeliversAndClearsDirty : Prop :=
  ∀ s : State, Handles .consume s fun t =>
    (s.status = .active → s.dirty = true →
      t.outputs = .snapshot s.px :: s.outputs ∧ t.dirty = false ∧ unchangedBut [.dirty, .outputs] s t) ∧
    (s.status ≠ .active ∨ s.dirty = false → unchangedBut [] s t)

/-- R262: `Exec(op)` executes the opcode exactly where a `Step` would execute one, whatever the level `run`. -/
def Obligations.ExecRunsTheGivenOpcode : Prop :=
  ∀ (op : Word) (s : State),
    (s.status = .active → s.wait.active = false → s.pc.toNat < 4094 →
      handle (.exec op) s = exec (decode op) { s with started := true }) ∧
    (s.status ≠ .active ∨ s.wait.active = true ∨ 4094 ≤ s.pc.toNat → handle (.exec op) s = .next s)

/-- R255, R264: `Run(b)` sets the input level in every status, and changes nothing else. -/
def Obligations.RunSetsOnlyTheLevel : Prop :=
  ∀ (b : Bool) (s : State), Handles (.run b) s fun t => t.run = b ∧ unchangedBut [.run] s t

/-- R264: a core that is not active ignores every event but `Reset`, which makes it active again, and `Run`, which sets its
level. -/
def Obligations.InactiveCoreIsFrozen : Prop :=
  ∀ s : State, s.status ≠ .active →
    (∀ e : Event, e ≠ .reset → (∀ b, e ≠ .run b) → handle e s = .next s) ∧
    (∀ b, Handles (.run b) s fun t => t.run = b ∧ unchangedBut [.run] s t) ∧
    Handles .reset s fun t => t.status = .active

/-- R324: from any state, the host's boot order (reset, load, run) makes the next step execute the loaded opcode. -/
def Obligations.BootRunsTheLoadedProgram : Prop :=
  ∀ (s : State) (hi lo : Byte) (rest : List Byte), rest.length + 2 ≤ 3584 →
    s.pending = [.reset, .load (hi :: lo :: rest), .run true] →
    ∃ t, core.run 3 s = .next t ∧ t.pc = 0x0200#16 ∧ t.stepEnabled ∧ t.pending = [] ∧
      step t = exec (decode (wordOfBytes hi lo)) { t with started := true }

/-! ## Rules of the whole machine -/

/-- R281: the codes of the causes; an instruction faults exactly under the condition of its row of the table, with the
recorded cause and info, and then only `status` changes (R285); otherwise `status` is unchanged. -/
def Obligations.FaultsExactlyByTheTable : Prop :=
  (∀ (w : Word) (k : Nat) (v : Byte),
    (Fault.memRange w k).code = 1 ∧ (Fault.stackOverflow w).code = 2 ∧ (Fault.stackUnderflow w).code = 3 ∧
    (Fault.keyRange v).code = 4 ∧ (Fault.indexOverflow w v).code = 5) ∧
  ∀ (i : Instr) (s : State),
    (∀ f, faultOf i s = some f → Faults i s f) ∧
    (faultOf i s = none → Completes i s fun t => t.status = s.status)

/-- The frame of every instruction: one that does not fault writes only the parts that spec/10_state.md says it writes, and
of the general registers, the stack entries, the bytes of memory and the pixels only those that its rule names (R20, R21,
R25, R33, R65). The draw counter that CXNN advances and the history that an unmatched opcode extends are the model's own (log
entries 6 and 8). -/
def Obligations.InstructionsWriteOnlyTheirParts : Prop :=
  ∀ (i : Instr) (s t : State), faultOf i s = none → exec i s = .next t →
    unchangedBut (partsWritten i) s t ∧
    (∀ r, ¬ writesReg i r → t.getV r = s.getV r) ∧
    (∀ a, ¬ writesByte i s a → t.readMem a = s.readMem a) ∧
    (∀ k (h : k < 16), ¬ writesEntry i s k → t.stack[k] = s.stack[k]) ∧
    (∀ row col, ¬ writesPixel i s row col → pixel t.px row col = pixel s.px row col)

/-- R114: where every instruction leaves `pc`, exactly, in a state that meets the invariant with `pc` below the fetch limit;
an instruction that faults leaves it unchanged. -/
def Obligations.PcMovesByTheTable : Prop :=
  ∀ (i : Instr) (s t : State), s.Inv → s.pc.toNat < 4094 → exec i s = .next t →
    t.pc.toNat = if faultOf i s = none then pcAfter i s else s.pc.toNat

/-- R28, R36, R37, R204: no instruction reads the sound timer, the dirty flag, the last key or the level `run` (nor the
model's own event lists): two states that agree on all other parts still do after the instruction. -/
def Obligations.InstructionsDoNotReadHostState : Prop :=
  ∀ (i : Instr) (s s' t : State),
    unchangedBut [.soundTimer, .dirty, .lastKey, .run, .started, .pending, .outputs] s s' → exec i s = .next t →
    ∃ t', exec i s' = .next t' ∧
      unchangedBut [.soundTimer, .dirty, .lastKey, .run, .started, .pending, .outputs] t t'

/-- R39, R323: no step changes the configuration. -/
def Obligations.StepKeepsTheConfiguration : Prop :=
  ∀ s t : State, step s = .next t → t.cfg = s.cfg

/-- R43: the state after creation, with every configuration, meets the invariant. -/
def Obligations.CreationMeetsTheInvariant : Prop := State.reset.Inv ∧ ∀ c : Config, (State.create c).Inv

/-- R43: every step, whichever event it takes, keeps the invariant: memory in canonical form and within 4096 bytes, `pc` at
most 0x10FE, every stack entry in use below 4094, a waiting `pc` below 4094, and `pc` at 0x200 until started. -/
def Obligations.StepKeepsTheInvariant : Prop :=
  ∀ s t : State, s.Inv → step s = .next t → t.Inv
end

