-- ==== Sys2Proof/Laws/Decode.lean ====
section
/-! SUPPORT. What the fixed bits of a row (spec/30_encoding.md R94) say of the fields of an opcode that it selects: a field
of a masked opcode is the field masked. -/

namespace Sys2Proof

theorem fieldA_and (v w : Word) : fieldA (v &&& w) = fieldA v &&& fieldA w := BitVec.extractLsb'_and

theorem fieldN_and (v w : Word) : fieldN (v &&& w) = fieldN v &&& fieldN w := BitVec.extractLsb'_and

theorem fieldNN_and (v w : Word) : fieldNN (v &&& w) = fieldNN v &&& fieldNN w := BitVec.extractLsb'_and

/-- A field that the mask keeps whole is the match's. -/
theorem fieldA_of_selected {op mask value : Word} (h : op &&& mask = value) (hm : fieldA mask = BitVec.allOnes 4) :
    fieldA op = fieldA value := by
  rw [← h, fieldA_and, hm, BitVec.and_allOnes]

theorem fieldN_of_selected {op mask value : Word} (h : op &&& mask = value) (hm : fieldN mask = BitVec.allOnes 4) :
    fieldN op = fieldN value := by
  rw [← h, fieldN_and, hm, BitVec.and_allOnes]

theorem fieldNN_of_selected {op mask value : Word} (h : op &&& mask = value) (hm : fieldNN mask = BitVec.allOnes 8) :
    fieldNN op = fieldNN value := by
  rw [← h, fieldNN_and, hm, BitVec.and_allOnes]

end Sys2Proof
end

