-- ==== Sys2Proof/Laws/Memory.lean ====
section
/-! SUPPORT. Memory: reading after a write, and the canonical form, which every memory operation keeps. -/

namespace Sys2Proof.Machine

variable {f : Font}

theorem Memory.read_erase (m : Memory) (a b : Nat) :
    (m.erase a).read f b = if b = a then Memory.unlisted f b else m.read f b := by
  induction m with
  | nil => simp [Memory.erase, Memory.read]
  | cons c m ih =>
    obtain ⟨k, v⟩ := c
    by_cases hk : k = a
    · subst hk
      have : Memory.erase ((k, v) :: m) k = Memory.erase m k := by simp [Memory.erase]
      rw [this, ih]
      by_cases hb : b = k
      · simp [hb]
      · simp [hb, Memory.read, Ne.symm hb]
    · have : Memory.erase ((k, v) :: m) a = (k, v) :: Memory.erase m a := by simp [Memory.erase, hk]
      rw [this]
      by_cases hb : k = b
      · subst hb; simp [Memory.read, hk]
      · simp [Memory.read, hb, ih]

theorem Memory.mem_erase {m : Memory} {a : Nat} {c : Host.Cell} (h : c ∈ m.erase a) : c ∈ m ∧ c.1 ≠ a := by
  simpa [Memory.erase] using h

theorem Memory.read_insert (m : Memory) (a : Nat) (v : Byte) (b : Nat) (h : ∀ c ∈ m, c.1 ≠ a) :
    (Memory.insert a v m).read f b = if b = a then v else m.read f b := by
  induction m with
  | nil => simp [Memory.insert, Memory.read, eq_comm]
  | cons c m ih =>
    obtain ⟨k, w⟩ := c
    have hk : k ≠ a := h (k, w) (by simp)
    have ih := ih fun c hc => h c (by simp [hc])
    unfold Memory.insert
    split
    · by_cases hb : b = a
      · simp [Memory.read, hb]
      · simp [Memory.read, hb, Ne.symm hb]
    · by_cases hb : k = b
      · subst hb; simp [Memory.read, hk]
      · simp [Memory.read, hb, ih]

/-- A read after a write: the byte written there, and every other byte as before. -/
@[simp] theorem Memory.read_write (m : Memory) (a : Nat) (v : Byte) (b : Nat) :
    (m.write f a v).read f b = if b = a then v else m.read f b := by
  unfold Memory.write
  split
  · next h => rw [Memory.read_erase]; split <;> simp_all
  · rw [Memory.read_insert _ _ _ _ fun c hc => (Memory.mem_erase hc).2, Memory.read_erase]
    split <;> simp_all

theorem Memory.mem_insert {a : Nat} {v : Byte} {m : Memory} {c : Host.Cell} :
    c ∈ Memory.insert a v m ↔ c = (a, v) ∨ c ∈ m := by
  induction m with
  | nil => simp [Memory.insert]
  | cons d m ih =>
    obtain ⟨k, w⟩ := d
    unfold Memory.insert
    split
    · simp
    · simp only [List.mem_cons, ih]; tauto

theorem Memory.erase_wf {m : Memory} (h : m.wf f) (a : Nat) : (m.erase a).wf f :=
  ⟨h.1.filter _, fun c hc => h.2 c (Memory.mem_erase hc).1⟩

theorem Memory.insert_wf {m : Memory} (h : m.wf f) {a : Nat} {v : Byte} (ha : ∀ c ∈ m, c.1 ≠ a)
    (hv : v ≠ Memory.unlisted f a) : (Memory.insert a v m).wf f := by
  refine ⟨?_, fun c hc => ?_⟩
  · induction m with
    | nil => simp [Memory.insert]
    | cons d m ih =>
      obtain ⟨k, w⟩ := d
      have hk : k ≠ a := ha (k, w) (by simp)
      obtain ⟨hkm, hm⟩ := List.pairwise_cons.mp h.1
      unfold Memory.insert
      split
      · next hak =>
        refine List.pairwise_cons.mpr ⟨fun c hc => ?_, h.1⟩
        rcases List.mem_cons.mp hc with rfl | hc
        · exact hak
        · exact Nat.lt_trans hak (hkm c hc)
      · refine List.pairwise_cons.mpr ⟨fun c hc => ?_, ?_⟩
        · rcases Memory.mem_insert.mp hc with rfl | hc
          · show k < a; omega
          · exact hkm c hc
        · exact ih ⟨hm, fun c hc => h.2 c (by simp [hc])⟩ fun c hc => ha c (by simp [hc])
  · rcases Memory.mem_insert.mp hc with rfl | hc
    · exact hv
    · exact h.2 c hc

/-- A write keeps the canonical form. -/
theorem Memory.write_wf {m : Memory} (h : m.wf f) (a : Nat) (v : Byte) : (m.write f a v).wf f := by
  unfold Memory.write
  split
  · exact Memory.erase_wf h a
  · next hv => exact Memory.insert_wf (Memory.erase_wf h a) (fun c hc => (Memory.mem_erase hc).2) hv

/-- A write at an address that exists lists only addresses that exist. -/
theorem Memory.write_inRange {m : Memory} (h : m.inRange) {a : Nat} (ha : a < Config.memSize) (v : Byte) :
    (m.write f a v).inRange := by
  intro c hc
  unfold Memory.write at hc
  split at hc
  · exact h c (Memory.mem_erase hc).1
  · rcases Memory.mem_insert.mp hc with rfl | hc
    · exact ha
    · exact h c (Memory.mem_erase hc).1

/-- Stored bytes read back; every byte outside them is as before. -/
theorem Memory.read_writeBytes (bs : List Byte) (m : Memory) (a b : Nat) :
    (m.writeBytes f a bs).read f b = if h : a ≤ b ∧ b < a + bs.length then bs[b - a]'(by omega) else m.read f b := by
  induction bs generalizing m a with
  | nil => simp only [Memory.writeBytes, List.length_nil]; split <;> first | omega | rfl
  | cons v bs ih =>
    rw [Memory.writeBytes, ih]
    simp only [List.length_cons, Memory.read_write]
    by_cases hb : b = a
    · subst hb; simp
    · by_cases h1 : a + 1 ≤ b ∧ b < a + 1 + bs.length
      · have h2 : a ≤ b ∧ b < a + (bs.length + 1) := by omega
        obtain ⟨n, hn⟩ : ∃ n, b - a = n + 1 := ⟨b - a - 1, by omega⟩
        have hn' : b - (a + 1) = n := by omega
        simp [h1, h2, hn, hn']
      · have h2 : ¬(a ≤ b ∧ b < a + (bs.length + 1)) := by omega
        rw [dif_neg h1, dif_neg h2, if_neg hb]

/-- A byte outside the stored bytes is as before. -/
theorem Memory.read_writeBytes_outside {bs : List Byte} {m : Memory} {a b : Nat} (h : b < a ∨ a + bs.length ≤ b) :
    (m.writeBytes f a bs).read f b = m.read f b := by
  rw [Memory.read_writeBytes, dif_neg (by omega)]

theorem Memory.writeBytes_wf (bs : List Byte) {m : Memory} (h : m.wf f) (a : Nat) : (m.writeBytes f a bs).wf f := by
  induction bs generalizing m a with
  | nil => exact h
  | cons v bs ih => exact ih (Memory.write_wf h a v) (a + 1)

theorem Memory.writeBytes_inRange (bs : List Byte) {m : Memory} (h : m.inRange) {a : Nat}
    (ha : a + bs.length ≤ Config.memSize) : (m.writeBytes f a bs).inRange := by
  induction bs generalizing m a with
  | nil => exact h
  | cons v bs ih =>
    simp only [List.length_cons] at ha
    exact ih (Memory.write_inRange h (by omega) v) (by omega)

@[simp] theorem Memory.length_readBytes (m : Memory) (a n : Nat) : (m.readBytes f a n).length = n := by
  induction n generalizing a with
  | zero => rfl
  | succ n ih => simp [Memory.readBytes, ih]

/-- The bytes read are the bytes at rising addresses. -/
theorem Memory.getElem_readBytes (m : Memory) (a n j : Nat) (h : j < (m.readBytes f a n).length) :
    (m.readBytes f a n)[j] = m.read f (a + j) := by
  induction n generalizing a j with
  | zero => simp at h
  | succ n ih =>
    cases j with
    | zero => simp [Memory.readBytes]
    | succ j =>
      simp only [Memory.readBytes, List.getElem_cons_succ]
      rw [ih]; congr 1; omega

/-- Two memories that read alike give the same bytes. -/
theorem Memory.readBytes_congr {m m' : Memory} (h : ∀ a, m'.read f a = m.read f a) (a n : Nat) :
    m'.readBytes f a n = m.readBytes f a n := by
  induction n generalizing a with
  | zero => rfl
  | succ n ih => simp [Memory.readBytes, h, ih]

end Sys2Proof.Machine
end

