-- ==== Sys2Proof/Laws/State.lean ====
section
/-! SUPPORT. One lemma per field and per update of State: what the update writes and what it leaves. -/

namespace Sys2Proof.Machine

section
variable (s : State)

@[simp] theorem State.setV_V (x : Nib) (b : Byte) : (s.setV x b).V = s.V.set x.toNat b x.isLt := rfl
@[simp] theorem State.setV_I (x : Nib) (b : Byte) : (s.setV x b).I = s.I := rfl
@[simp] theorem State.setV_pc (x : Nib) (b : Byte) : (s.setV x b).pc = s.pc := rfl
@[simp] theorem State.setV_stack (x : Nib) (b : Byte) : (s.setV x b).stack = s.stack := rfl
@[simp] theorem State.setV_sp (x : Nib) (b : Byte) : (s.setV x b).sp = s.sp := rfl
@[simp] theorem State.setV_DT (x : Nib) (b : Byte) : (s.setV x b).DT = s.DT := rfl
@[simp] theorem State.setV_ST (x : Nib) (b : Byte) : (s.setV x b).ST = s.ST := rfl
@[simp] theorem State.setV_wait (x : Nib) (b : Byte) : (s.setV x b).wait = s.wait := rfl
@[simp] theorem State.setV_status (x : Nib) (b : Byte) : (s.setV x b).status = s.status := rfl
@[simp] theorem State.setV_mem (x : Nib) (b : Byte) : (s.setV x b).mem = s.mem := rfl
@[simp] theorem State.setV_px (x : Nib) (b : Byte) : (s.setV x b).px = s.px := rfl
@[simp] theorem State.setV_dirty (x : Nib) (b : Byte) : (s.setV x b).dirty = s.dirty := rfl
@[simp] theorem State.setV_key (x : Nib) (b : Byte) : (s.setV x b).key = s.key := rfl
@[simp] theorem State.setV_lastKey (x : Nib) (b : Byte) : (s.setV x b).lastKey = s.lastKey := rfl
@[simp] theorem State.setV_run (x : Nib) (b : Byte) : (s.setV x b).run = s.run := rfl
@[simp] theorem State.setV_started (x : Nib) (b : Byte) : (s.setV x b).started = s.started := rfl
@[simp] theorem State.setV_cfg (x : Nib) (b : Byte) : (s.setV x b).cfg = s.cfg := rfl
@[simp] theorem State.setV_draws (x : Nib) (b : Byte) : (s.setV x b).draws = s.draws := rfl
@[simp] theorem State.setV_pending (x : Nib) (b : Byte) : (s.setV x b).pending = s.pending := rfl
@[simp] theorem State.setV_outputs (x : Nib) (b : Byte) : (s.setV x b).outputs = s.outputs := rfl
@[simp] theorem State.setV_keypadGet (x : Nib) (b : Byte) (k' : Nib) : (s.setV x b).keypadGet k' = s.keypadGet k' := rfl
@[simp] theorem State.setV_readMem (x : Nib) (b : Byte) (a' : Nat) : (s.setV x b).readMem a' = s.readMem a' := rfl

@[simp] theorem State.setResultFlag_V (x : Nib) (r f : Byte) : (s.setResultFlag x r f).V = ((s.setV x r).setV vf f).V := rfl
@[simp] theorem State.setResultFlag_I (x : Nib) (r f : Byte) : (s.setResultFlag x r f).I = s.I := rfl
@[simp] theorem State.setResultFlag_pc (x : Nib) (r f : Byte) : (s.setResultFlag x r f).pc = s.pc := rfl
@[simp] theorem State.setResultFlag_stack (x : Nib) (r f : Byte) : (s.setResultFlag x r f).stack = s.stack := rfl
@[simp] theorem State.setResultFlag_sp (x : Nib) (r f : Byte) : (s.setResultFlag x r f).sp = s.sp := rfl
@[simp] theorem State.setResultFlag_DT (x : Nib) (r f : Byte) : (s.setResultFlag x r f).DT = s.DT := rfl
@[simp] theorem State.setResultFlag_ST (x : Nib) (r f : Byte) : (s.setResultFlag x r f).ST = s.ST := rfl
@[simp] theorem State.setResultFlag_wait (x : Nib) (r f : Byte) : (s.setResultFlag x r f).wait = s.wait := rfl
@[simp] theorem State.setResultFlag_status (x : Nib) (r f : Byte) : (s.setResultFlag x r f).status = s.status := rfl
@[simp] theorem State.setResultFlag_mem (x : Nib) (r f : Byte) : (s.setResultFlag x r f).mem = s.mem := rfl
@[simp] theorem State.setResultFlag_px (x : Nib) (r f : Byte) : (s.setResultFlag x r f).px = s.px := rfl
@[simp] theorem State.setResultFlag_dirty (x : Nib) (r f : Byte) : (s.setResultFlag x r f).dirty = s.dirty := rfl
@[simp] theorem State.setResultFlag_key (x : Nib) (r f : Byte) : (s.setResultFlag x r f).key = s.key := rfl
@[simp] theorem State.setResultFlag_lastKey (x : Nib) (r f : Byte) : (s.setResultFlag x r f).lastKey = s.lastKey := rfl
@[simp] theorem State.setResultFlag_run (x : Nib) (r f : Byte) : (s.setResultFlag x r f).run = s.run := rfl
@[simp] theorem State.setResultFlag_started (x : Nib) (r f : Byte) : (s.setResultFlag x r f).started = s.started := rfl
@[simp] theorem State.setResultFlag_cfg (x : Nib) (r f : Byte) : (s.setResultFlag x r f).cfg = s.cfg := rfl
@[simp] theorem State.setResultFlag_draws (x : Nib) (r f : Byte) : (s.setResultFlag x r f).draws = s.draws := rfl
@[simp] theorem State.setResultFlag_pending (x : Nib) (r f : Byte) : (s.setResultFlag x r f).pending = s.pending := rfl
@[simp] theorem State.setResultFlag_outputs (x : Nib) (r f : Byte) : (s.setResultFlag x r f).outputs = s.outputs := rfl
@[simp] theorem State.setResultFlag_keypadGet (x : Nib) (r f : Byte) (k' : Nib) : (s.setResultFlag x r f).keypadGet k' = s.keypadGet k' := rfl
@[simp] theorem State.setResultFlag_readMem (x : Nib) (r f : Byte) (a' : Nat) : (s.setResultFlag x r f).readMem a' = s.readMem a' := rfl

@[simp] theorem State.loadBlock_V (x : Nib) : (s.loadBlock x).V = s.loadedRegs x := rfl
@[simp] theorem State.loadBlock_I (x : Nib) : (s.loadBlock x).I = s.I := rfl
@[simp] theorem State.loadBlock_pc (x : Nib) : (s.loadBlock x).pc = s.pc := rfl
@[simp] theorem State.loadBlock_stack (x : Nib) : (s.loadBlock x).stack = s.stack := rfl
@[simp] theorem State.loadBlock_sp (x : Nib) : (s.loadBlock x).sp = s.sp := rfl
@[simp] theorem State.loadBlock_DT (x : Nib) : (s.loadBlock x).DT = s.DT := rfl
@[simp] theorem State.loadBlock_ST (x : Nib) : (s.loadBlock x).ST = s.ST := rfl
@[simp] theorem State.loadBlock_wait (x : Nib) : (s.loadBlock x).wait = s.wait := rfl
@[simp] theorem State.loadBlock_status (x : Nib) : (s.loadBlock x).status = s.status := rfl
@[simp] theorem State.loadBlock_mem (x : Nib) : (s.loadBlock x).mem = s.mem := rfl
@[simp] theorem State.loadBlock_px (x : Nib) : (s.loadBlock x).px = s.px := rfl
@[simp] theorem State.loadBlock_dirty (x : Nib) : (s.loadBlock x).dirty = s.dirty := rfl
@[simp] theorem State.loadBlock_key (x : Nib) : (s.loadBlock x).key = s.key := rfl
@[simp] theorem State.loadBlock_lastKey (x : Nib) : (s.loadBlock x).lastKey = s.lastKey := rfl
@[simp] theorem State.loadBlock_run (x : Nib) : (s.loadBlock x).run = s.run := rfl
@[simp] theorem State.loadBlock_started (x : Nib) : (s.loadBlock x).started = s.started := rfl
@[simp] theorem State.loadBlock_cfg (x : Nib) : (s.loadBlock x).cfg = s.cfg := rfl
@[simp] theorem State.loadBlock_draws (x : Nib) : (s.loadBlock x).draws = s.draws := rfl
@[simp] theorem State.loadBlock_pending (x : Nib) : (s.loadBlock x).pending = s.pending := rfl
@[simp] theorem State.loadBlock_outputs (x : Nib) : (s.loadBlock x).outputs = s.outputs := rfl
@[simp] theorem State.loadBlock_keypadGet (x : Nib) (k' : Nib) : (s.loadBlock x).keypadGet k' = s.keypadGet k' := rfl
@[simp] theorem State.loadBlock_readMem (x : Nib) (a' : Nat) : (s.loadBlock x).readMem a' = s.readMem a' := rfl

@[simp] theorem State.setI_V (w : Word) : (s.setI w).V = s.V := rfl
@[simp] theorem State.setI_I (w : Word) : (s.setI w).I = w := rfl
@[simp] theorem State.setI_pc (w : Word) : (s.setI w).pc = s.pc := rfl
@[simp] theorem State.setI_stack (w : Word) : (s.setI w).stack = s.stack := rfl
@[simp] theorem State.setI_sp (w : Word) : (s.setI w).sp = s.sp := rfl
@[simp] theorem State.setI_DT (w : Word) : (s.setI w).DT = s.DT := rfl
@[simp] theorem State.setI_ST (w : Word) : (s.setI w).ST = s.ST := rfl
@[simp] theorem State.setI_wait (w : Word) : (s.setI w).wait = s.wait := rfl
@[simp] theorem State.setI_status (w : Word) : (s.setI w).status = s.status := rfl
@[simp] theorem State.setI_mem (w : Word) : (s.setI w).mem = s.mem := rfl
@[simp] theorem State.setI_px (w : Word) : (s.setI w).px = s.px := rfl
@[simp] theorem State.setI_dirty (w : Word) : (s.setI w).dirty = s.dirty := rfl
@[simp] theorem State.setI_key (w : Word) : (s.setI w).key = s.key := rfl
@[simp] theorem State.setI_lastKey (w : Word) : (s.setI w).lastKey = s.lastKey := rfl
@[simp] theorem State.setI_run (w : Word) : (s.setI w).run = s.run := rfl
@[simp] theorem State.setI_started (w : Word) : (s.setI w).started = s.started := rfl
@[simp] theorem State.setI_cfg (w : Word) : (s.setI w).cfg = s.cfg := rfl
@[simp] theorem State.setI_draws (w : Word) : (s.setI w).draws = s.draws := rfl
@[simp] theorem State.setI_pending (w : Word) : (s.setI w).pending = s.pending := rfl
@[simp] theorem State.setI_outputs (w : Word) : (s.setI w).outputs = s.outputs := rfl
@[simp] theorem State.setI_getV (w : Word) (r : Nib) : (s.setI w).getV r = s.getV r := rfl
@[simp] theorem State.setI_keypadGet (w : Word) (k' : Nib) : (s.setI w).keypadGet k' = s.keypadGet k' := rfl
@[simp] theorem State.setI_readMem (w : Word) (a' : Nat) : (s.setI w).readMem a' = s.readMem a' := rfl

@[simp] theorem State.setPc_V (w : Word) : (s.setPc w).V = s.V := rfl
@[simp] theorem State.setPc_I (w : Word) : (s.setPc w).I = s.I := rfl
@[simp] theorem State.setPc_pc (w : Word) : (s.setPc w).pc = w := rfl
@[simp] theorem State.setPc_stack (w : Word) : (s.setPc w).stack = s.stack := rfl
@[simp] theorem State.setPc_sp (w : Word) : (s.setPc w).sp = s.sp := rfl
@[simp] theorem State.setPc_DT (w : Word) : (s.setPc w).DT = s.DT := rfl
@[simp] theorem State.setPc_ST (w : Word) : (s.setPc w).ST = s.ST := rfl
@[simp] theorem State.setPc_wait (w : Word) : (s.setPc w).wait = s.wait := rfl
@[simp] theorem State.setPc_status (w : Word) : (s.setPc w).status = s.status := rfl
@[simp] theorem State.setPc_mem (w : Word) : (s.setPc w).mem = s.mem := rfl
@[simp] theorem State.setPc_px (w : Word) : (s.setPc w).px = s.px := rfl
@[simp] theorem State.setPc_dirty (w : Word) : (s.setPc w).dirty = s.dirty := rfl
@[simp] theorem State.setPc_key (w : Word) : (s.setPc w).key = s.key := rfl
@[simp] theorem State.setPc_lastKey (w : Word) : (s.setPc w).lastKey = s.lastKey := rfl
@[simp] theorem State.setPc_run (w : Word) : (s.setPc w).run = s.run := rfl
@[simp] theorem State.setPc_started (w : Word) : (s.setPc w).started = s.started := rfl
@[simp] theorem State.setPc_cfg (w : Word) : (s.setPc w).cfg = s.cfg := rfl
@[simp] theorem State.setPc_draws (w : Word) : (s.setPc w).draws = s.draws := rfl
@[simp] theorem State.setPc_pending (w : Word) : (s.setPc w).pending = s.pending := rfl
@[simp] theorem State.setPc_outputs (w : Word) : (s.setPc w).outputs = s.outputs := rfl
@[simp] theorem State.setPc_getV (w : Word) (r : Nib) : (s.setPc w).getV r = s.getV r := rfl
@[simp] theorem State.setPc_keypadGet (w : Word) (k' : Nib) : (s.setPc w).keypadGet k' = s.keypadGet k' := rfl
@[simp] theorem State.setPc_readMem (w : Word) (a' : Nat) : (s.setPc w).readMem a' = s.readMem a' := rfl

@[simp] theorem State.advance_V : s.advance.V = s.V := rfl
@[simp] theorem State.advance_I : s.advance.I = s.I := rfl
@[simp] theorem State.advance_pc : s.advance.pc = s.pc + 2#16 := rfl
@[simp] theorem State.advance_stack : s.advance.stack = s.stack := rfl
@[simp] theorem State.advance_sp : s.advance.sp = s.sp := rfl
@[simp] theorem State.advance_DT : s.advance.DT = s.DT := rfl
@[simp] theorem State.advance_ST : s.advance.ST = s.ST := rfl
@[simp] theorem State.advance_wait : s.advance.wait = s.wait := rfl
@[simp] theorem State.advance_status : s.advance.status = s.status := rfl
@[simp] theorem State.advance_mem : s.advance.mem = s.mem := rfl
@[simp] theorem State.advance_px : s.advance.px = s.px := rfl
@[simp] theorem State.advance_dirty : s.advance.dirty = s.dirty := rfl
@[simp] theorem State.advance_key : s.advance.key = s.key := rfl
@[simp] theorem State.advance_lastKey : s.advance.lastKey = s.lastKey := rfl
@[simp] theorem State.advance_run : s.advance.run = s.run := rfl
@[simp] theorem State.advance_started : s.advance.started = s.started := rfl
@[simp] theorem State.advance_cfg : s.advance.cfg = s.cfg := rfl
@[simp] theorem State.advance_draws : s.advance.draws = s.draws := rfl
@[simp] theorem State.advance_pending : s.advance.pending = s.pending := rfl
@[simp] theorem State.advance_outputs : s.advance.outputs = s.outputs := rfl
@[simp] theorem State.advance_getV (r : Nib) : s.advance.getV r = s.getV r := rfl
@[simp] theorem State.advance_keypadGet (k' : Nib) : s.advance.keypadGet k' = s.keypadGet k' := rfl
@[simp] theorem State.advance_readMem (a' : Nat) : s.advance.readMem a' = s.readMem a' := rfl

@[simp] theorem State.skipIf_V (c : Bool) : (s.skipIf c).V = s.V := rfl
@[simp] theorem State.skipIf_I (c : Bool) : (s.skipIf c).I = s.I := rfl
@[simp] theorem State.skipIf_pc (c : Bool) : (s.skipIf c).pc = s.pc + if c then 4#16 else 2#16 := rfl
@[simp] theorem State.skipIf_stack (c : Bool) : (s.skipIf c).stack = s.stack := rfl
@[simp] theorem State.skipIf_sp (c : Bool) : (s.skipIf c).sp = s.sp := rfl
@[simp] theorem State.skipIf_DT (c : Bool) : (s.skipIf c).DT = s.DT := rfl
@[simp] theorem State.skipIf_ST (c : Bool) : (s.skipIf c).ST = s.ST := rfl
@[simp] theorem State.skipIf_wait (c : Bool) : (s.skipIf c).wait = s.wait := rfl
@[simp] theorem State.skipIf_status (c : Bool) : (s.skipIf c).status = s.status := rfl
@[simp] theorem State.skipIf_mem (c : Bool) : (s.skipIf c).mem = s.mem := rfl
@[simp] theorem State.skipIf_px (c : Bool) : (s.skipIf c).px = s.px := rfl
@[simp] theorem State.skipIf_dirty (c : Bool) : (s.skipIf c).dirty = s.dirty := rfl
@[simp] theorem State.skipIf_key (c : Bool) : (s.skipIf c).key = s.key := rfl
@[simp] theorem State.skipIf_lastKey (c : Bool) : (s.skipIf c).lastKey = s.lastKey := rfl
@[simp] theorem State.skipIf_run (c : Bool) : (s.skipIf c).run = s.run := rfl
@[simp] theorem State.skipIf_started (c : Bool) : (s.skipIf c).started = s.started := rfl
@[simp] theorem State.skipIf_cfg (c : Bool) : (s.skipIf c).cfg = s.cfg := rfl
@[simp] theorem State.skipIf_draws (c : Bool) : (s.skipIf c).draws = s.draws := rfl
@[simp] theorem State.skipIf_pending (c : Bool) : (s.skipIf c).pending = s.pending := rfl
@[simp] theorem State.skipIf_outputs (c : Bool) : (s.skipIf c).outputs = s.outputs := rfl
@[simp] theorem State.skipIf_getV (c : Bool) (r : Nib) : (s.skipIf c).getV r = s.getV r := rfl
@[simp] theorem State.skipIf_keypadGet (c : Bool) (k' : Nib) : (s.skipIf c).keypadGet k' = s.keypadGet k' := rfl
@[simp] theorem State.skipIf_readMem (c : Bool) (a' : Nat) : (s.skipIf c).readMem a' = s.readMem a' := rfl

@[simp] theorem State.push_V (w : Word) (h : s.sp.val < 16) : (s.push w h).V = s.V := rfl
@[simp] theorem State.push_I (w : Word) (h : s.sp.val < 16) : (s.push w h).I = s.I := rfl
@[simp] theorem State.push_pc (w : Word) (h : s.sp.val < 16) : (s.push w h).pc = s.pc := rfl
@[simp] theorem State.push_stack (w : Word) (h : s.sp.val < 16) : (s.push w h).stack = s.stack.set s.sp.val w h := rfl
@[simp] theorem State.push_sp (w : Word) (h : s.sp.val < 16) : (s.push w h).sp = ⟨s.sp.val + 1, by omega⟩ := rfl
@[simp] theorem State.push_DT (w : Word) (h : s.sp.val < 16) : (s.push w h).DT = s.DT := rfl
@[simp] theorem State.push_ST (w : Word) (h : s.sp.val < 16) : (s.push w h).ST = s.ST := rfl
@[simp] theorem State.push_wait (w : Word) (h : s.sp.val < 16) : (s.push w h).wait = s.wait := rfl
@[simp] theorem State.push_status (w : Word) (h : s.sp.val < 16) : (s.push w h).status = s.status := rfl
@[simp] theorem State.push_mem (w : Word) (h : s.sp.val < 16) : (s.push w h).mem = s.mem := rfl
@[simp] theorem State.push_px (w : Word) (h : s.sp.val < 16) : (s.push w h).px = s.px := rfl
@[simp] theorem State.push_dirty (w : Word) (h : s.sp.val < 16) : (s.push w h).dirty = s.dirty := rfl
@[simp] theorem State.push_key (w : Word) (h : s.sp.val < 16) : (s.push w h).key = s.key := rfl
@[simp] theorem State.push_lastKey (w : Word) (h : s.sp.val < 16) : (s.push w h).lastKey = s.lastKey := rfl
@[simp] theorem State.push_run (w : Word) (h : s.sp.val < 16) : (s.push w h).run = s.run := rfl
@[simp] theorem State.push_started (w : Word) (h : s.sp.val < 16) : (s.push w h).started = s.started := rfl
@[simp] theorem State.push_cfg (w : Word) (h : s.sp.val < 16) : (s.push w h).cfg = s.cfg := rfl
@[simp] theorem State.push_draws (w : Word) (h : s.sp.val < 16) : (s.push w h).draws = s.draws := rfl
@[simp] theorem State.push_pending (w : Word) (h : s.sp.val < 16) : (s.push w h).pending = s.pending := rfl
@[simp] theorem State.push_outputs (w : Word) (h : s.sp.val < 16) : (s.push w h).outputs = s.outputs := rfl
@[simp] theorem State.push_getV (w : Word) (h : s.sp.val < 16) (r : Nib) : (s.push w h).getV r = s.getV r := rfl
@[simp] theorem State.push_keypadGet (w : Word) (h : s.sp.val < 16) (k' : Nib) : (s.push w h).keypadGet k' = s.keypadGet k' := rfl
@[simp] theorem State.push_readMem (w : Word) (h : s.sp.val < 16) (a' : Nat) : (s.push w h).readMem a' = s.readMem a' := rfl

@[simp] theorem State.pop_V : s.pop.V = s.V := rfl
@[simp] theorem State.pop_I : s.pop.I = s.I := rfl
@[simp] theorem State.pop_pc : s.pop.pc = s.pc := rfl
@[simp] theorem State.pop_stack : s.pop.stack = s.stack := rfl
@[simp] theorem State.pop_sp : s.pop.sp = ⟨s.sp.val - 1, by have := s.sp.isLt; omega⟩ := rfl
@[simp] theorem State.pop_DT : s.pop.DT = s.DT := rfl
@[simp] theorem State.pop_ST : s.pop.ST = s.ST := rfl
@[simp] theorem State.pop_wait : s.pop.wait = s.wait := rfl
@[simp] theorem State.pop_status : s.pop.status = s.status := rfl
@[simp] theorem State.pop_mem : s.pop.mem = s.mem := rfl
@[simp] theorem State.pop_px : s.pop.px = s.px := rfl
@[simp] theorem State.pop_dirty : s.pop.dirty = s.dirty := rfl
@[simp] theorem State.pop_key : s.pop.key = s.key := rfl
@[simp] theorem State.pop_lastKey : s.pop.lastKey = s.lastKey := rfl
@[simp] theorem State.pop_run : s.pop.run = s.run := rfl
@[simp] theorem State.pop_started : s.pop.started = s.started := rfl
@[simp] theorem State.pop_cfg : s.pop.cfg = s.cfg := rfl
@[simp] theorem State.pop_draws : s.pop.draws = s.draws := rfl
@[simp] theorem State.pop_pending : s.pop.pending = s.pending := rfl
@[simp] theorem State.pop_outputs : s.pop.outputs = s.outputs := rfl
@[simp] theorem State.pop_getV (r : Nib) : s.pop.getV r = s.getV r := rfl
@[simp] theorem State.pop_keypadGet (k' : Nib) : s.pop.keypadGet k' = s.keypadGet k' := rfl
@[simp] theorem State.pop_readMem (a' : Nat) : s.pop.readMem a' = s.readMem a' := rfl

@[simp] theorem State.setDT_V (b : Byte) : (s.setDT b).V = s.V := rfl
@[simp] theorem State.setDT_I (b : Byte) : (s.setDT b).I = s.I := rfl
@[simp] theorem State.setDT_pc (b : Byte) : (s.setDT b).pc = s.pc := rfl
@[simp] theorem State.setDT_stack (b : Byte) : (s.setDT b).stack = s.stack := rfl
@[simp] theorem State.setDT_sp (b : Byte) : (s.setDT b).sp = s.sp := rfl
@[simp] theorem State.setDT_DT (b : Byte) : (s.setDT b).DT = b := rfl
@[simp] theorem State.setDT_ST (b : Byte) : (s.setDT b).ST = s.ST := rfl
@[simp] theorem State.setDT_wait (b : Byte) : (s.setDT b).wait = s.wait := rfl
@[simp] theorem State.setDT_status (b : Byte) : (s.setDT b).status = s.status := rfl
@[simp] theorem State.setDT_mem (b : Byte) : (s.setDT b).mem = s.mem := rfl
@[simp] theorem State.setDT_px (b : Byte) : (s.setDT b).px = s.px := rfl
@[simp] theorem State.setDT_dirty (b : Byte) : (s.setDT b).dirty = s.dirty := rfl
@[simp] theorem State.setDT_key (b : Byte) : (s.setDT b).key = s.key := rfl
@[simp] theorem State.setDT_lastKey (b : Byte) : (s.setDT b).lastKey = s.lastKey := rfl
@[simp] theorem State.setDT_run (b : Byte) : (s.setDT b).run = s.run := rfl
@[simp] theorem State.setDT_started (b : Byte) : (s.setDT b).started = s.started := rfl
@[simp] theorem State.setDT_cfg (b : Byte) : (s.setDT b).cfg = s.cfg := rfl
@[simp] theorem State.setDT_draws (b : Byte) : (s.setDT b).draws = s.draws := rfl
@[simp] theorem State.setDT_pending (b : Byte) : (s.setDT b).pending = s.pending := rfl
@[simp] theorem State.setDT_outputs (b : Byte) : (s.setDT b).outputs = s.outputs := rfl
@[simp] theorem State.setDT_getV (b : Byte) (r : Nib) : (s.setDT b).getV r = s.getV r := rfl
@[simp] theorem State.setDT_keypadGet (b : Byte) (k' : Nib) : (s.setDT b).keypadGet k' = s.keypadGet k' := rfl
@[simp] theorem State.setDT_readMem (b : Byte) (a' : Nat) : (s.setDT b).readMem a' = s.readMem a' := rfl

@[simp] theorem State.setST_V (b : Byte) : (s.setST b).V = s.V := rfl
@[simp] theorem State.setST_I (b : Byte) : (s.setST b).I = s.I := rfl
@[simp] theorem State.setST_pc (b : Byte) : (s.setST b).pc = s.pc := rfl
@[simp] theorem State.setST_stack (b : Byte) : (s.setST b).stack = s.stack := rfl
@[simp] theorem State.setST_sp (b : Byte) : (s.setST b).sp = s.sp := rfl
@[simp] theorem State.setST_DT (b : Byte) : (s.setST b).DT = s.DT := rfl
@[simp] theorem State.setST_ST (b : Byte) : (s.setST b).ST = b := rfl
@[simp] theorem State.setST_wait (b : Byte) : (s.setST b).wait = s.wait := rfl
@[simp] theorem State.setST_status (b : Byte) : (s.setST b).status = s.status := rfl
@[simp] theorem State.setST_mem (b : Byte) : (s.setST b).mem = s.mem := rfl
@[simp] theorem State.setST_px (b : Byte) : (s.setST b).px = s.px := rfl
@[simp] theorem State.setST_dirty (b : Byte) : (s.setST b).dirty = s.dirty := rfl
@[simp] theorem State.setST_key (b : Byte) : (s.setST b).key = s.key := rfl
@[simp] theorem State.setST_lastKey (b : Byte) : (s.setST b).lastKey = s.lastKey := rfl
@[simp] theorem State.setST_run (b : Byte) : (s.setST b).run = s.run := rfl
@[simp] theorem State.setST_started (b : Byte) : (s.setST b).started = s.started := rfl
@[simp] theorem State.setST_cfg (b : Byte) : (s.setST b).cfg = s.cfg := rfl
@[simp] theorem State.setST_draws (b : Byte) : (s.setST b).draws = s.draws := rfl
@[simp] theorem State.setST_pending (b : Byte) : (s.setST b).pending = s.pending := rfl
@[simp] theorem State.setST_outputs (b : Byte) : (s.setST b).outputs = s.outputs := rfl
@[simp] theorem State.setST_getV (b : Byte) (r : Nib) : (s.setST b).getV r = s.getV r := rfl
@[simp] theorem State.setST_keypadGet (b : Byte) (k' : Nib) : (s.setST b).keypadGet k' = s.keypadGet k' := rfl
@[simp] theorem State.setST_readMem (b : Byte) (a' : Nat) : (s.setST b).readMem a' = s.readMem a' := rfl

@[simp] theorem State.setWait_V (w : Wait) : (s.setWait w).V = s.V := rfl
@[simp] theorem State.setWait_I (w : Wait) : (s.setWait w).I = s.I := rfl
@[simp] theorem State.setWait_pc (w : Wait) : (s.setWait w).pc = s.pc := rfl
@[simp] theorem State.setWait_stack (w : Wait) : (s.setWait w).stack = s.stack := rfl
@[simp] theorem State.setWait_sp (w : Wait) : (s.setWait w).sp = s.sp := rfl
@[simp] theorem State.setWait_DT (w : Wait) : (s.setWait w).DT = s.DT := rfl
@[simp] theorem State.setWait_ST (w : Wait) : (s.setWait w).ST = s.ST := rfl
@[simp] theorem State.setWait_wait (w : Wait) : (s.setWait w).wait = w := rfl
@[simp] theorem State.setWait_status (w : Wait) : (s.setWait w).status = s.status := rfl
@[simp] theorem State.setWait_mem (w : Wait) : (s.setWait w).mem = s.mem := rfl
@[simp] theorem State.setWait_px (w : Wait) : (s.setWait w).px = s.px := rfl
@[simp] theorem State.setWait_dirty (w : Wait) : (s.setWait w).dirty = s.dirty := rfl
@[simp] theorem State.setWait_key (w : Wait) : (s.setWait w).key = s.key := rfl
@[simp] theorem State.setWait_lastKey (w : Wait) : (s.setWait w).lastKey = s.lastKey := rfl
@[simp] theorem State.setWait_run (w : Wait) : (s.setWait w).run = s.run := rfl
@[simp] theorem State.setWait_started (w : Wait) : (s.setWait w).started = s.started := rfl
@[simp] theorem State.setWait_cfg (w : Wait) : (s.setWait w).cfg = s.cfg := rfl
@[simp] theorem State.setWait_draws (w : Wait) : (s.setWait w).draws = s.draws := rfl
@[simp] theorem State.setWait_pending (w : Wait) : (s.setWait w).pending = s.pending := rfl
@[simp] theorem State.setWait_outputs (w : Wait) : (s.setWait w).outputs = s.outputs := rfl
@[simp] theorem State.setWait_getV (w : Wait) (r : Nib) : (s.setWait w).getV r = s.getV r := rfl
@[simp] theorem State.setWait_keypadGet (w : Wait) (k' : Nib) : (s.setWait w).keypadGet k' = s.keypadGet k' := rfl
@[simp] theorem State.setWait_readMem (w : Wait) (a' : Nat) : (s.setWait w).readMem a' = s.readMem a' := rfl

@[simp] theorem State.setStatus_V (x : Status) : (s.setStatus x).V = s.V := rfl
@[simp] theorem State.setStatus_I (x : Status) : (s.setStatus x).I = s.I := rfl
@[simp] theorem State.setStatus_pc (x : Status) : (s.setStatus x).pc = s.pc := rfl
@[simp] theorem State.setStatus_stack (x : Status) : (s.setStatus x).stack = s.stack := rfl
@[simp] theorem State.setStatus_sp (x : Status) : (s.setStatus x).sp = s.sp := rfl
@[simp] theorem State.setStatus_DT (x : Status) : (s.setStatus x).DT = s.DT := rfl
@[simp] theorem State.setStatus_ST (x : Status) : (s.setStatus x).ST = s.ST := rfl
@[simp] theorem State.setStatus_wait (x : Status) : (s.setStatus x).wait = s.wait := rfl
@[simp] theorem State.setStatus_status (x : Status) : (s.setStatus x).status = x := rfl
@[simp] theorem State.setStatus_mem (x : Status) : (s.setStatus x).mem = s.mem := rfl
@[simp] theorem State.setStatus_px (x : Status) : (s.setStatus x).px = s.px := rfl
@[simp] theorem State.setStatus_dirty (x : Status) : (s.setStatus x).dirty = s.dirty := rfl
@[simp] theorem State.setStatus_key (x : Status) : (s.setStatus x).key = s.key := rfl
@[simp] theorem State.setStatus_lastKey (x : Status) : (s.setStatus x).lastKey = s.lastKey := rfl
@[simp] theorem State.setStatus_run (x : Status) : (s.setStatus x).run = s.run := rfl
@[simp] theorem State.setStatus_started (x : Status) : (s.setStatus x).started = s.started := rfl
@[simp] theorem State.setStatus_cfg (x : Status) : (s.setStatus x).cfg = s.cfg := rfl
@[simp] theorem State.setStatus_draws (x : Status) : (s.setStatus x).draws = s.draws := rfl
@[simp] theorem State.setStatus_pending (x : Status) : (s.setStatus x).pending = s.pending := rfl
@[simp] theorem State.setStatus_outputs (x : Status) : (s.setStatus x).outputs = s.outputs := rfl
@[simp] theorem State.setStatus_getV (x : Status) (r : Nib) : (s.setStatus x).getV r = s.getV r := rfl
@[simp] theorem State.setStatus_keypadGet (x : Status) (k' : Nib) : (s.setStatus x).keypadGet k' = s.keypadGet k' := rfl
@[simp] theorem State.setStatus_readMem (x : Status) (a' : Nat) : (s.setStatus x).readMem a' = s.readMem a' := rfl

@[simp] theorem State.takeFault_V (f : Fault) : (s.takeFault f).V = s.V := rfl
@[simp] theorem State.takeFault_I (f : Fault) : (s.takeFault f).I = s.I := rfl
@[simp] theorem State.takeFault_pc (f : Fault) : (s.takeFault f).pc = s.pc := rfl
@[simp] theorem State.takeFault_stack (f : Fault) : (s.takeFault f).stack = s.stack := rfl
@[simp] theorem State.takeFault_sp (f : Fault) : (s.takeFault f).sp = s.sp := rfl
@[simp] theorem State.takeFault_DT (f : Fault) : (s.takeFault f).DT = s.DT := rfl
@[simp] theorem State.takeFault_ST (f : Fault) : (s.takeFault f).ST = s.ST := rfl
@[simp] theorem State.takeFault_wait (f : Fault) : (s.takeFault f).wait = s.wait := rfl
@[simp] theorem State.takeFault_status (f : Fault) : (s.takeFault f).status = .faulted f := rfl
@[simp] theorem State.takeFault_mem (f : Fault) : (s.takeFault f).mem = s.mem := rfl
@[simp] theorem State.takeFault_px (f : Fault) : (s.takeFault f).px = s.px := rfl
@[simp] theorem State.takeFault_dirty (f : Fault) : (s.takeFault f).dirty = s.dirty := rfl
@[simp] theorem State.takeFault_key (f : Fault) : (s.takeFault f).key = s.key := rfl
@[simp] theorem State.takeFault_lastKey (f : Fault) : (s.takeFault f).lastKey = s.lastKey := rfl
@[simp] theorem State.takeFault_run (f : Fault) : (s.takeFault f).run = s.run := rfl
@[simp] theorem State.takeFault_started (f : Fault) : (s.takeFault f).started = s.started := rfl
@[simp] theorem State.takeFault_cfg (f : Fault) : (s.takeFault f).cfg = s.cfg := rfl
@[simp] theorem State.takeFault_draws (f : Fault) : (s.takeFault f).draws = s.draws := rfl
@[simp] theorem State.takeFault_pending (f : Fault) : (s.takeFault f).pending = s.pending := rfl
@[simp] theorem State.takeFault_outputs (f : Fault) : (s.takeFault f).outputs = s.outputs := rfl
@[simp] theorem State.takeFault_getV (f : Fault) (r : Nib) : (s.takeFault f).getV r = s.getV r := rfl
@[simp] theorem State.takeFault_keypadGet (f : Fault) (k' : Nib) : (s.takeFault f).keypadGet k' = s.keypadGet k' := rfl
@[simp] theorem State.takeFault_readMem (f : Fault) (a' : Nat) : (s.takeFault f).readMem a' = s.readMem a' := rfl

@[simp] theorem State.setMem_V (m : Memory) : (s.setMem m).V = s.V := rfl
@[simp] theorem State.setMem_I (m : Memory) : (s.setMem m).I = s.I := rfl
@[simp] theorem State.setMem_pc (m : Memory) : (s.setMem m).pc = s.pc := rfl
@[simp] theorem State.setMem_stack (m : Memory) : (s.setMem m).stack = s.stack := rfl
@[simp] theorem State.setMem_sp (m : Memory) : (s.setMem m).sp = s.sp := rfl
@[simp] theorem State.setMem_DT (m : Memory) : (s.setMem m).DT = s.DT := rfl
@[simp] theorem State.setMem_ST (m : Memory) : (s.setMem m).ST = s.ST := rfl
@[simp] theorem State.setMem_wait (m : Memory) : (s.setMem m).wait = s.wait := rfl
@[simp] theorem State.setMem_status (m : Memory) : (s.setMem m).status = s.status := rfl
@[simp] theorem State.setMem_mem (m : Memory) : (s.setMem m).mem = m := rfl
@[simp] theorem State.setMem_px (m : Memory) : (s.setMem m).px = s.px := rfl
@[simp] theorem State.setMem_dirty (m : Memory) : (s.setMem m).dirty = s.dirty := rfl
@[simp] theorem State.setMem_key (m : Memory) : (s.setMem m).key = s.key := rfl
@[simp] theorem State.setMem_lastKey (m : Memory) : (s.setMem m).lastKey = s.lastKey := rfl
@[simp] theorem State.setMem_run (m : Memory) : (s.setMem m).run = s.run := rfl
@[simp] theorem State.setMem_started (m : Memory) : (s.setMem m).started = s.started := rfl
@[simp] theorem State.setMem_cfg (m : Memory) : (s.setMem m).cfg = s.cfg := rfl
@[simp] theorem State.setMem_draws (m : Memory) : (s.setMem m).draws = s.draws := rfl
@[simp] theorem State.setMem_pending (m : Memory) : (s.setMem m).pending = s.pending := rfl
@[simp] theorem State.setMem_outputs (m : Memory) : (s.setMem m).outputs = s.outputs := rfl
@[simp] theorem State.setMem_getV (m : Memory) (r : Nib) : (s.setMem m).getV r = s.getV r := rfl
@[simp] theorem State.setMem_keypadGet (m : Memory) (k' : Nib) : (s.setMem m).keypadGet k' = s.keypadGet k' := rfl

@[simp] theorem State.storeBytes_V (a : Nat) (bs : List Byte) : (s.storeBytes a bs).V = s.V := rfl
@[simp] theorem State.storeBytes_I (a : Nat) (bs : List Byte) : (s.storeBytes a bs).I = s.I := rfl
@[simp] theorem State.storeBytes_pc (a : Nat) (bs : List Byte) : (s.storeBytes a bs).pc = s.pc := rfl
@[simp] theorem State.storeBytes_stack (a : Nat) (bs : List Byte) : (s.storeBytes a bs).stack = s.stack := rfl
@[simp] theorem State.storeBytes_sp (a : Nat) (bs : List Byte) : (s.storeBytes a bs).sp = s.sp := rfl
@[simp] theorem State.storeBytes_DT (a : Nat) (bs : List Byte) : (s.storeBytes a bs).DT = s.DT := rfl
@[simp] theorem State.storeBytes_ST (a : Nat) (bs : List Byte) : (s.storeBytes a bs).ST = s.ST := rfl
@[simp] theorem State.storeBytes_wait (a : Nat) (bs : List Byte) : (s.storeBytes a bs).wait = s.wait := rfl
@[simp] theorem State.storeBytes_status (a : Nat) (bs : List Byte) : (s.storeBytes a bs).status = s.status := rfl
@[simp] theorem State.storeBytes_mem (a : Nat) (bs : List Byte) : (s.storeBytes a bs).mem = s.mem.writeBytes s.cfg.fontSet a bs := rfl
@[simp] theorem State.storeBytes_px (a : Nat) (bs : List Byte) : (s.storeBytes a bs).px = s.px := rfl
@[simp] theorem State.storeBytes_dirty (a : Nat) (bs : List Byte) : (s.storeBytes a bs).dirty = s.dirty := rfl
@[simp] theorem State.storeBytes_key (a : Nat) (bs : List Byte) : (s.storeBytes a bs).key = s.key := rfl
@[simp] theorem State.storeBytes_lastKey (a : Nat) (bs : List Byte) : (s.storeBytes a bs).lastKey = s.lastKey := rfl
@[simp] theorem State.storeBytes_run (a : Nat) (bs : List Byte) : (s.storeBytes a bs).run = s.run := rfl
@[simp] theorem State.storeBytes_started (a : Nat) (bs : List Byte) : (s.storeBytes a bs).started = s.started := rfl
@[simp] theorem State.storeBytes_cfg (a : Nat) (bs : List Byte) : (s.storeBytes a bs).cfg = s.cfg := rfl
@[simp] theorem State.storeBytes_draws (a : Nat) (bs : List Byte) : (s.storeBytes a bs).draws = s.draws := rfl
@[simp] theorem State.storeBytes_pending (a : Nat) (bs : List Byte) : (s.storeBytes a bs).pending = s.pending := rfl
@[simp] theorem State.storeBytes_outputs (a : Nat) (bs : List Byte) : (s.storeBytes a bs).outputs = s.outputs := rfl
@[simp] theorem State.storeBytes_getV (a : Nat) (bs : List Byte) (r : Nib) : (s.storeBytes a bs).getV r = s.getV r := rfl
@[simp] theorem State.storeBytes_keypadGet (a : Nat) (bs : List Byte) (k' : Nib) : (s.storeBytes a bs).keypadGet k' = s.keypadGet k' := rfl

@[simp] theorem State.setPx_V (g : Grid) : (s.setPx g).V = s.V := rfl
@[simp] theorem State.setPx_I (g : Grid) : (s.setPx g).I = s.I := rfl
@[simp] theorem State.setPx_pc (g : Grid) : (s.setPx g).pc = s.pc := rfl
@[simp] theorem State.setPx_stack (g : Grid) : (s.setPx g).stack = s.stack := rfl
@[simp] theorem State.setPx_sp (g : Grid) : (s.setPx g).sp = s.sp := rfl
@[simp] theorem State.setPx_DT (g : Grid) : (s.setPx g).DT = s.DT := rfl
@[simp] theorem State.setPx_ST (g : Grid) : (s.setPx g).ST = s.ST := rfl
@[simp] theorem State.setPx_wait (g : Grid) : (s.setPx g).wait = s.wait := rfl
@[simp] theorem State.setPx_status (g : Grid) : (s.setPx g).status = s.status := rfl
@[simp] theorem State.setPx_mem (g : Grid) : (s.setPx g).mem = s.mem := rfl
@[simp] theorem State.setPx_px (g : Grid) : (s.setPx g).px = g := rfl
@[simp] theorem State.setPx_dirty (g : Grid) : (s.setPx g).dirty = true := rfl
@[simp] theorem State.setPx_key (g : Grid) : (s.setPx g).key = s.key := rfl
@[simp] theorem State.setPx_lastKey (g : Grid) : (s.setPx g).lastKey = s.lastKey := rfl
@[simp] theorem State.setPx_run (g : Grid) : (s.setPx g).run = s.run := rfl
@[simp] theorem State.setPx_started (g : Grid) : (s.setPx g).started = s.started := rfl
@[simp] theorem State.setPx_cfg (g : Grid) : (s.setPx g).cfg = s.cfg := rfl
@[simp] theorem State.setPx_draws (g : Grid) : (s.setPx g).draws = s.draws := rfl
@[simp] theorem State.setPx_pending (g : Grid) : (s.setPx g).pending = s.pending := rfl
@[simp] theorem State.setPx_outputs (g : Grid) : (s.setPx g).outputs = s.outputs := rfl
@[simp] theorem State.setPx_getV (g : Grid) (r : Nib) : (s.setPx g).getV r = s.getV r := rfl
@[simp] theorem State.setPx_keypadGet (g : Grid) (k' : Nib) : (s.setPx g).keypadGet k' = s.keypadGet k' := rfl
@[simp] theorem State.setPx_readMem (g : Grid) (a' : Nat) : (s.setPx g).readMem a' = s.readMem a' := rfl

@[simp] theorem State.displayClear_V : s.displayClear.V = s.V := rfl
@[simp] theorem State.displayClear_I : s.displayClear.I = s.I := rfl
@[simp] theorem State.displayClear_pc : s.displayClear.pc = s.pc := rfl
@[simp] theorem State.displayClear_stack : s.displayClear.stack = s.stack := rfl
@[simp] theorem State.displayClear_sp : s.displayClear.sp = s.sp := rfl
@[simp] theorem State.displayClear_DT : s.displayClear.DT = s.DT := rfl
@[simp] theorem State.displayClear_ST : s.displayClear.ST = s.ST := rfl
@[simp] theorem State.displayClear_wait : s.displayClear.wait = s.wait := rfl
@[simp] theorem State.displayClear_status : s.displayClear.status = s.status := rfl
@[simp] theorem State.displayClear_mem : s.displayClear.mem = s.mem := rfl
@[simp] theorem State.displayClear_px : s.displayClear.px = blankGrid := rfl
@[simp] theorem State.displayClear_dirty : s.displayClear.dirty = true := rfl
@[simp] theorem State.displayClear_key : s.displayClear.key = s.key := rfl
@[simp] theorem State.displayClear_lastKey : s.displayClear.lastKey = s.lastKey := rfl
@[simp] theorem State.displayClear_run : s.displayClear.run = s.run := rfl
@[simp] theorem State.displayClear_started : s.displayClear.started = s.started := rfl
@[simp] theorem State.displayClear_cfg : s.displayClear.cfg = s.cfg := rfl
@[simp] theorem State.displayClear_draws : s.displayClear.draws = s.draws := rfl
@[simp] theorem State.displayClear_pending : s.displayClear.pending = s.pending := rfl
@[simp] theorem State.displayClear_outputs : s.displayClear.outputs = s.outputs := rfl
@[simp] theorem State.displayClear_getV (r : Nib) : s.displayClear.getV r = s.getV r := rfl
@[simp] theorem State.displayClear_keypadGet (k' : Nib) : s.displayClear.keypadGet k' = s.keypadGet k' := rfl
@[simp] theorem State.displayClear_readMem (a' : Nat) : s.displayClear.readMem a' = s.readMem a' := rfl

@[simp] theorem State.displayDraw_V (x y : Byte) (rows : List Byte) : (s.displayDraw x y rows).V = s.V := rfl
@[simp] theorem State.displayDraw_I (x y : Byte) (rows : List Byte) : (s.displayDraw x y rows).I = s.I := rfl
@[simp] theorem State.displayDraw_pc (x y : Byte) (rows : List Byte) : (s.displayDraw x y rows).pc = s.pc := rfl
@[simp] theorem State.displayDraw_stack (x y : Byte) (rows : List Byte) : (s.displayDraw x y rows).stack = s.stack := rfl
@[simp] theorem State.displayDraw_sp (x y : Byte) (rows : List Byte) : (s.displayDraw x y rows).sp = s.sp := rfl
@[simp] theorem State.displayDraw_DT (x y : Byte) (rows : List Byte) : (s.displayDraw x y rows).DT = s.DT := rfl
@[simp] theorem State.displayDraw_ST (x y : Byte) (rows : List Byte) : (s.displayDraw x y rows).ST = s.ST := rfl
@[simp] theorem State.displayDraw_wait (x y : Byte) (rows : List Byte) : (s.displayDraw x y rows).wait = s.wait := rfl
@[simp] theorem State.displayDraw_status (x y : Byte) (rows : List Byte) : (s.displayDraw x y rows).status = s.status := rfl
@[simp] theorem State.displayDraw_mem (x y : Byte) (rows : List Byte) : (s.displayDraw x y rows).mem = s.mem := rfl
@[simp] theorem State.displayDraw_px (x y : Byte) (rows : List Byte) : (s.displayDraw x y rows).px = (drawSprite x y rows s.px).1 := rfl
@[simp] theorem State.displayDraw_dirty (x y : Byte) (rows : List Byte) : (s.displayDraw x y rows).dirty = true := rfl
@[simp] theorem State.displayDraw_key (x y : Byte) (rows : List Byte) : (s.displayDraw x y rows).key = s.key := rfl
@[simp] theorem State.displayDraw_lastKey (x y : Byte) (rows : List Byte) : (s.displayDraw x y rows).lastKey = s.lastKey := rfl
@[simp] theorem State.displayDraw_run (x y : Byte) (rows : List Byte) : (s.displayDraw x y rows).run = s.run := rfl
@[simp] theorem State.displayDraw_started (x y : Byte) (rows : List Byte) : (s.displayDraw x y rows).started = s.started := rfl
@[simp] theorem State.displayDraw_cfg (x y : Byte) (rows : List Byte) : (s.displayDraw x y rows).cfg = s.cfg := rfl
@[simp] theorem State.displayDraw_draws (x y : Byte) (rows : List Byte) : (s.displayDraw x y rows).draws = s.draws := rfl
@[simp] theorem State.displayDraw_pending (x y : Byte) (rows : List Byte) : (s.displayDraw x y rows).pending = s.pending := rfl
@[simp] theorem State.displayDraw_outputs (x y : Byte) (rows : List Byte) : (s.displayDraw x y rows).outputs = s.outputs := rfl
@[simp] theorem State.displayDraw_getV (x y : Byte) (rows : List Byte) (r : Nib) : (s.displayDraw x y rows).getV r = s.getV r := rfl
@[simp] theorem State.displayDraw_keypadGet (x y : Byte) (rows : List Byte) (k' : Nib) : (s.displayDraw x y rows).keypadGet k' = s.keypadGet k' := rfl
@[simp] theorem State.displayDraw_readMem (x y : Byte) (rows : List Byte) (a' : Nat) : (s.displayDraw x y rows).readMem a' = s.readMem a' := rfl

@[simp] theorem State.drawn_V : s.drawn.V = s.V := rfl
@[simp] theorem State.drawn_I : s.drawn.I = s.I := rfl
@[simp] theorem State.drawn_pc : s.drawn.pc = s.pc := rfl
@[simp] theorem State.drawn_stack : s.drawn.stack = s.stack := rfl
@[simp] theorem State.drawn_sp : s.drawn.sp = s.sp := rfl
@[simp] theorem State.drawn_DT : s.drawn.DT = s.DT := rfl
@[simp] theorem State.drawn_ST : s.drawn.ST = s.ST := rfl
@[simp] theorem State.drawn_wait : s.drawn.wait = s.wait := rfl
@[simp] theorem State.drawn_status : s.drawn.status = s.status := rfl
@[simp] theorem State.drawn_mem : s.drawn.mem = s.mem := rfl
@[simp] theorem State.drawn_px : s.drawn.px = s.px := rfl
@[simp] theorem State.drawn_dirty : s.drawn.dirty = s.dirty := rfl
@[simp] theorem State.drawn_key : s.drawn.key = s.key := rfl
@[simp] theorem State.drawn_lastKey : s.drawn.lastKey = s.lastKey := rfl
@[simp] theorem State.drawn_run : s.drawn.run = s.run := rfl
@[simp] theorem State.drawn_started : s.drawn.started = s.started := rfl
@[simp] theorem State.drawn_cfg : s.drawn.cfg = s.cfg := rfl
@[simp] theorem State.drawn_draws : s.drawn.draws = s.draws + 1 := rfl
@[simp] theorem State.drawn_pending : s.drawn.pending = s.pending := rfl
@[simp] theorem State.drawn_outputs : s.drawn.outputs = s.outputs := rfl
@[simp] theorem State.drawn_getV (r : Nib) : s.drawn.getV r = s.getV r := rfl
@[simp] theorem State.drawn_keypadGet (k' : Nib) : s.drawn.keypadGet k' = s.keypadGet k' := rfl
@[simp] theorem State.drawn_readMem (a' : Nat) : s.drawn.readMem a' = s.readMem a' := rfl

@[simp] theorem State.emit_V (o : Output) : (s.emit o).V = s.V := rfl
@[simp] theorem State.emit_I (o : Output) : (s.emit o).I = s.I := rfl
@[simp] theorem State.emit_pc (o : Output) : (s.emit o).pc = s.pc := rfl
@[simp] theorem State.emit_stack (o : Output) : (s.emit o).stack = s.stack := rfl
@[simp] theorem State.emit_sp (o : Output) : (s.emit o).sp = s.sp := rfl
@[simp] theorem State.emit_DT (o : Output) : (s.emit o).DT = s.DT := rfl
@[simp] theorem State.emit_ST (o : Output) : (s.emit o).ST = s.ST := rfl
@[simp] theorem State.emit_wait (o : Output) : (s.emit o).wait = s.wait := rfl
@[simp] theorem State.emit_status (o : Output) : (s.emit o).status = s.status := rfl
@[simp] theorem State.emit_mem (o : Output) : (s.emit o).mem = s.mem := rfl
@[simp] theorem State.emit_px (o : Output) : (s.emit o).px = s.px := rfl
@[simp] theorem State.emit_dirty (o : Output) : (s.emit o).dirty = s.dirty := rfl
@[simp] theorem State.emit_key (o : Output) : (s.emit o).key = s.key := rfl
@[simp] theorem State.emit_lastKey (o : Output) : (s.emit o).lastKey = s.lastKey := rfl
@[simp] theorem State.emit_run (o : Output) : (s.emit o).run = s.run := rfl
@[simp] theorem State.emit_started (o : Output) : (s.emit o).started = s.started := rfl
@[simp] theorem State.emit_cfg (o : Output) : (s.emit o).cfg = s.cfg := rfl
@[simp] theorem State.emit_draws (o : Output) : (s.emit o).draws = s.draws := rfl
@[simp] theorem State.emit_pending (o : Output) : (s.emit o).pending = s.pending := rfl
@[simp] theorem State.emit_outputs (o : Output) : (s.emit o).outputs = o :: s.outputs := rfl
@[simp] theorem State.emit_getV (o : Output) (r : Nib) : (s.emit o).getV r = s.getV r := rfl
@[simp] theorem State.emit_keypadGet (o : Output) (k' : Nib) : (s.emit o).keypadGet k' = s.keypadGet k' := rfl
@[simp] theorem State.emit_readMem (o : Output) (a' : Nat) : (s.emit o).readMem a' = s.readMem a' := rfl

@[simp] theorem State.keypadSet_V (k : Nib) (ks : KeyState) : (s.keypadSet k ks).V = s.V := rfl
@[simp] theorem State.keypadSet_I (k : Nib) (ks : KeyState) : (s.keypadSet k ks).I = s.I := rfl
@[simp] theorem State.keypadSet_pc (k : Nib) (ks : KeyState) : (s.keypadSet k ks).pc = s.pc := rfl
@[simp] theorem State.keypadSet_stack (k : Nib) (ks : KeyState) : (s.keypadSet k ks).stack = s.stack := rfl
@[simp] theorem State.keypadSet_sp (k : Nib) (ks : KeyState) : (s.keypadSet k ks).sp = s.sp := rfl
@[simp] theorem State.keypadSet_DT (k : Nib) (ks : KeyState) : (s.keypadSet k ks).DT = s.DT := rfl
@[simp] theorem State.keypadSet_ST (k : Nib) (ks : KeyState) : (s.keypadSet k ks).ST = s.ST := rfl
@[simp] theorem State.keypadSet_wait (k : Nib) (ks : KeyState) : (s.keypadSet k ks).wait = s.wait := rfl
@[simp] theorem State.keypadSet_status (k : Nib) (ks : KeyState) : (s.keypadSet k ks).status = s.status := rfl
@[simp] theorem State.keypadSet_mem (k : Nib) (ks : KeyState) : (s.keypadSet k ks).mem = s.mem := rfl
@[simp] theorem State.keypadSet_px (k : Nib) (ks : KeyState) : (s.keypadSet k ks).px = s.px := rfl
@[simp] theorem State.keypadSet_dirty (k : Nib) (ks : KeyState) : (s.keypadSet k ks).dirty = s.dirty := rfl
@[simp] theorem State.keypadSet_key (k : Nib) (ks : KeyState) : (s.keypadSet k ks).key = s.key.set k.toNat ks k.isLt := rfl
@[simp] theorem State.keypadSet_lastKey (k : Nib) (ks : KeyState) : (s.keypadSet k ks).lastKey = s.lastKey := rfl
@[simp] theorem State.keypadSet_run (k : Nib) (ks : KeyState) : (s.keypadSet k ks).run = s.run := rfl
@[simp] theorem State.keypadSet_started (k : Nib) (ks : KeyState) : (s.keypadSet k ks).started = s.started := rfl
@[simp] theorem State.keypadSet_cfg (k : Nib) (ks : KeyState) : (s.keypadSet k ks).cfg = s.cfg := rfl
@[simp] theorem State.keypadSet_draws (k : Nib) (ks : KeyState) : (s.keypadSet k ks).draws = s.draws := rfl
@[simp] theorem State.keypadSet_pending (k : Nib) (ks : KeyState) : (s.keypadSet k ks).pending = s.pending := rfl
@[simp] theorem State.keypadSet_outputs (k : Nib) (ks : KeyState) : (s.keypadSet k ks).outputs = s.outputs := rfl
@[simp] theorem State.keypadSet_getV (k : Nib) (ks : KeyState) (r : Nib) : (s.keypadSet k ks).getV r = s.getV r := rfl
@[simp] theorem State.keypadSet_readMem (k : Nib) (ks : KeyState) (a' : Nat) : (s.keypadSet k ks).readMem a' = s.readMem a' := rfl

@[simp] theorem State.begin_V : s.begin.V = s.V := rfl
@[simp] theorem State.begin_I : s.begin.I = s.I := rfl
@[simp] theorem State.begin_pc : s.begin.pc = s.pc := rfl
@[simp] theorem State.begin_stack : s.begin.stack = s.stack := rfl
@[simp] theorem State.begin_sp : s.begin.sp = s.sp := rfl
@[simp] theorem State.begin_DT : s.begin.DT = s.DT := rfl
@[simp] theorem State.begin_ST : s.begin.ST = s.ST := rfl
@[simp] theorem State.begin_wait : s.begin.wait = s.wait := rfl
@[simp] theorem State.begin_status : s.begin.status = s.status := rfl
@[simp] theorem State.begin_mem : s.begin.mem = s.mem := rfl
@[simp] theorem State.begin_px : s.begin.px = s.px := rfl
@[simp] theorem State.begin_dirty : s.begin.dirty = s.dirty := rfl
@[simp] theorem State.begin_key : s.begin.key = s.key := rfl
@[simp] theorem State.begin_lastKey : s.begin.lastKey = s.lastKey := rfl
@[simp] theorem State.begin_run : s.begin.run = s.run := rfl
@[simp] theorem State.begin_started : s.begin.started = true := rfl
@[simp] theorem State.begin_cfg : s.begin.cfg = s.cfg := rfl
@[simp] theorem State.begin_draws : s.begin.draws = s.draws := rfl
@[simp] theorem State.begin_pending : s.begin.pending = s.pending := rfl
@[simp] theorem State.begin_outputs : s.begin.outputs = s.outputs := rfl
@[simp] theorem State.begin_getV (r : Nib) : s.begin.getV r = s.getV r := rfl
@[simp] theorem State.begin_keypadGet (k' : Nib) : s.begin.keypadGet k' = s.keypadGet k' := rfl
@[simp] theorem State.begin_readMem (a' : Nat) : s.begin.readMem a' = s.readMem a' := rfl

@[simp] theorem State.setLastKey_V (k : Option Nib) : (s.setLastKey k).V = s.V := rfl
@[simp] theorem State.setLastKey_I (k : Option Nib) : (s.setLastKey k).I = s.I := rfl
@[simp] theorem State.setLastKey_pc (k : Option Nib) : (s.setLastKey k).pc = s.pc := rfl
@[simp] theorem State.setLastKey_stack (k : Option Nib) : (s.setLastKey k).stack = s.stack := rfl
@[simp] theorem State.setLastKey_sp (k : Option Nib) : (s.setLastKey k).sp = s.sp := rfl
@[simp] theorem State.setLastKey_DT (k : Option Nib) : (s.setLastKey k).DT = s.DT := rfl
@[simp] theorem State.setLastKey_ST (k : Option Nib) : (s.setLastKey k).ST = s.ST := rfl
@[simp] theorem State.setLastKey_wait (k : Option Nib) : (s.setLastKey k).wait = s.wait := rfl
@[simp] theorem State.setLastKey_status (k : Option Nib) : (s.setLastKey k).status = s.status := rfl
@[simp] theorem State.setLastKey_mem (k : Option Nib) : (s.setLastKey k).mem = s.mem := rfl
@[simp] theorem State.setLastKey_px (k : Option Nib) : (s.setLastKey k).px = s.px := rfl
@[simp] theorem State.setLastKey_dirty (k : Option Nib) : (s.setLastKey k).dirty = s.dirty := rfl
@[simp] theorem State.setLastKey_key (k : Option Nib) : (s.setLastKey k).key = s.key := rfl
@[simp] theorem State.setLastKey_lastKey (k : Option Nib) : (s.setLastKey k).lastKey = k := rfl
@[simp] theorem State.setLastKey_run (k : Option Nib) : (s.setLastKey k).run = s.run := rfl
@[simp] theorem State.setLastKey_started (k : Option Nib) : (s.setLastKey k).started = s.started := rfl
@[simp] theorem State.setLastKey_cfg (k : Option Nib) : (s.setLastKey k).cfg = s.cfg := rfl
@[simp] theorem State.setLastKey_draws (k : Option Nib) : (s.setLastKey k).draws = s.draws := rfl
@[simp] theorem State.setLastKey_pending (k : Option Nib) : (s.setLastKey k).pending = s.pending := rfl
@[simp] theorem State.setLastKey_outputs (k : Option Nib) : (s.setLastKey k).outputs = s.outputs := rfl
@[simp] theorem State.setLastKey_getV (k : Option Nib) (r : Nib) : (s.setLastKey k).getV r = s.getV r := rfl
@[simp] theorem State.setLastKey_keypadGet (k : Option Nib) (k' : Nib) : (s.setLastKey k).keypadGet k' = s.keypadGet k' := rfl
@[simp] theorem State.setLastKey_readMem (k : Option Nib) (a' : Nat) : (s.setLastKey k).readMem a' = s.readMem a' := rfl

@[simp] theorem State.setRun_V (b : Bool) : (s.setRun b).V = s.V := rfl
@[simp] theorem State.setRun_I (b : Bool) : (s.setRun b).I = s.I := rfl
@[simp] theorem State.setRun_pc (b : Bool) : (s.setRun b).pc = s.pc := rfl
@[simp] theorem State.setRun_stack (b : Bool) : (s.setRun b).stack = s.stack := rfl
@[simp] theorem State.setRun_sp (b : Bool) : (s.setRun b).sp = s.sp := rfl
@[simp] theorem State.setRun_DT (b : Bool) : (s.setRun b).DT = s.DT := rfl
@[simp] theorem State.setRun_ST (b : Bool) : (s.setRun b).ST = s.ST := rfl
@[simp] theorem State.setRun_wait (b : Bool) : (s.setRun b).wait = s.wait := rfl
@[simp] theorem State.setRun_status (b : Bool) : (s.setRun b).status = s.status := rfl
@[simp] theorem State.setRun_mem (b : Bool) : (s.setRun b).mem = s.mem := rfl
@[simp] theorem State.setRun_px (b : Bool) : (s.setRun b).px = s.px := rfl
@[simp] theorem State.setRun_dirty (b : Bool) : (s.setRun b).dirty = s.dirty := rfl
@[simp] theorem State.setRun_key (b : Bool) : (s.setRun b).key = s.key := rfl
@[simp] theorem State.setRun_lastKey (b : Bool) : (s.setRun b).lastKey = s.lastKey := rfl
@[simp] theorem State.setRun_run (b : Bool) : (s.setRun b).run = b := rfl
@[simp] theorem State.setRun_started (b : Bool) : (s.setRun b).started = s.started := rfl
@[simp] theorem State.setRun_cfg (b : Bool) : (s.setRun b).cfg = s.cfg := rfl
@[simp] theorem State.setRun_draws (b : Bool) : (s.setRun b).draws = s.draws := rfl
@[simp] theorem State.setRun_pending (b : Bool) : (s.setRun b).pending = s.pending := rfl
@[simp] theorem State.setRun_outputs (b : Bool) : (s.setRun b).outputs = s.outputs := rfl
@[simp] theorem State.setRun_getV (b : Bool) (r : Nib) : (s.setRun b).getV r = s.getV r := rfl
@[simp] theorem State.setRun_keypadGet (b : Bool) (k' : Nib) : (s.setRun b).keypadGet k' = s.keypadGet k' := rfl
@[simp] theorem State.setRun_readMem (b : Bool) (a' : Nat) : (s.setRun b).readMem a' = s.readMem a' := rfl

@[simp] theorem State.setPending_V (es : List Event) : (s.setPending es).V = s.V := rfl
@[simp] theorem State.setPending_I (es : List Event) : (s.setPending es).I = s.I := rfl
@[simp] theorem State.setPending_pc (es : List Event) : (s.setPending es).pc = s.pc := rfl
@[simp] theorem State.setPending_stack (es : List Event) : (s.setPending es).stack = s.stack := rfl
@[simp] theorem State.setPending_sp (es : List Event) : (s.setPending es).sp = s.sp := rfl
@[simp] theorem State.setPending_DT (es : List Event) : (s.setPending es).DT = s.DT := rfl
@[simp] theorem State.setPending_ST (es : List Event) : (s.setPending es).ST = s.ST := rfl
@[simp] theorem State.setPending_wait (es : List Event) : (s.setPending es).wait = s.wait := rfl
@[simp] theorem State.setPending_status (es : List Event) : (s.setPending es).status = s.status := rfl
@[simp] theorem State.setPending_mem (es : List Event) : (s.setPending es).mem = s.mem := rfl
@[simp] theorem State.setPending_px (es : List Event) : (s.setPending es).px = s.px := rfl
@[simp] theorem State.setPending_dirty (es : List Event) : (s.setPending es).dirty = s.dirty := rfl
@[simp] theorem State.setPending_key (es : List Event) : (s.setPending es).key = s.key := rfl
@[simp] theorem State.setPending_lastKey (es : List Event) : (s.setPending es).lastKey = s.lastKey := rfl
@[simp] theorem State.setPending_run (es : List Event) : (s.setPending es).run = s.run := rfl
@[simp] theorem State.setPending_started (es : List Event) : (s.setPending es).started = s.started := rfl
@[simp] theorem State.setPending_cfg (es : List Event) : (s.setPending es).cfg = s.cfg := rfl
@[simp] theorem State.setPending_draws (es : List Event) : (s.setPending es).draws = s.draws := rfl
@[simp] theorem State.setPending_pending (es : List Event) : (s.setPending es).pending = es := rfl
@[simp] theorem State.setPending_outputs (es : List Event) : (s.setPending es).outputs = s.outputs := rfl
@[simp] theorem State.setPending_getV (es : List Event) (r : Nib) : (s.setPending es).getV r = s.getV r := rfl
@[simp] theorem State.setPending_keypadGet (es : List Event) (k' : Nib) : (s.setPending es).keypadGet k' = s.keypadGet k' := rfl
@[simp] theorem State.setPending_readMem (es : List Event) (a' : Nat) : (s.setPending es).readMem a' = s.readMem a' := rfl

end

end Sys2Proof.Machine
end

