-- ==== Sys2Proof/Laws/Ops.lean ====
section
/-! SUPPORT. One lemma per shared operation that says what it does: registers, keypad, operand forms, flags and arithmetic
as exact numbers, the parts of the state, and the shape of a step. -/

namespace Sys2Proof.Machine

/-! ## Registers and keypad -/

/-- A register after a write: the written one holds the byte, every other is as before. -/
@[simp] theorem State.getV_setV (s : State) (x : Nib) (b : Byte) (r : Nib) :
    (s.setV x b).getV r = if r = x then b else s.getV r := by
  simp [State.getV, State.setV, Vector.getElem_set, eq_comm, ← BitVec.toNat_inj]

/-- The result and the flag: `VF` holds the flag, `V[x]` the result unless it is `VF`, every other is as before. -/
theorem State.getV_setResultFlag (s : State) (x : Nib) (result flag : Byte) (r : Nib) :
    (s.setResultFlag x result flag).getV r = if r = vf then flag else if r = x then result else s.getV r := by
  simp [State.setResultFlag]

/-- A register after the block load: loaded up to `V[x]`, as before above. -/
theorem State.getV_loadBlock (s : State) (x r : Nib) :
    (s.loadBlock x).getV r = if r.toNat ≤ x.toNat then s.readMem (s.I.toNat + r.toNat) else s.getV r := by
  simp [State.getV, State.loadBlock, State.loadedRegs, blockSize]

/-- A key after a write. -/
@[simp] theorem State.keypadGet_keypadSet (s : State) (k : Nib) (ks : KeyState) (j : Nib) :
    (s.keypadSet k ks).keypadGet j = if j = k then ks else s.keypadGet j := by
  simp [State.keypadGet, State.keypadSet, Vector.getElem_set, eq_comm, ← BitVec.toNat_inj]

/-! ## Memory of a state -/

/-- Stored bytes read back; every byte outside them is as before. -/
theorem State.readMem_storeBytes (s : State) (a : Nat) (bs : List Byte) (b : Nat) :
    (s.storeBytes a bs).readMem b = if h : a ≤ b ∧ b < a + bs.length then bs[b - a]'(by omega) else s.readMem b :=
  Memory.read_writeBytes bs s.mem a b

/-- A byte outside the stored bytes is as before. -/
theorem State.readMem_storeBytes_outside {s : State} {a : Nat} {bs : List Byte} {b : Nat}
    (h : b < a ∨ a + bs.length ≤ b) : (s.storeBytes a bs).readMem b = s.readMem b :=
  Memory.read_writeBytes_outside h

@[simp] theorem State.length_readBytes (s : State) (a n : Nat) : (s.readBytes a n).length = n :=
  Memory.length_readBytes s.mem a n

/-- The bytes read are the bytes at rising addresses. -/
theorem State.getElem_readBytes (s : State) (a n j : Nat) (h : j < (s.readBytes a n).length) :
    (s.readBytes a n)[j] = s.readMem (a + j) :=
  Memory.getElem_readBytes s.mem a n j h

/-! ## Operand forms -/

theorem State.inRange_iff (s : State) (k : Nat) : s.inRange k = true ↔ s.I.toNat + k ≤ 4096 :=
  decide_eq_true_iff

theorem zext12_toNat (nnn : Imm12) : (zext12 nnn).toNat = nnn.toNat := by
  have := nnn.isLt
  simp only [zext12, BitVec.toNat_setWidth]; omega

theorem jumpV0Target_toNat (nnn : Imm12) (v0 : Byte) : (jumpV0Target nnn v0).toNat = nnn.toNat + v0.toNat := by
  have := nnn.isLt
  have := v0.isLt
  simp only [jumpV0Target, BitVec.toNat_ofNat]; omega

theorem glyphAddress_toNat (v : Byte) : (glyphAddress v).toNat = v.toNat * 5 := by
  have := v.isLt
  simp only [glyphAddress, Config.glyphBytes, BitVec.toNat_ofNat]; omega

theorem State.length_regBlock (s : State) (x : Nib) : (s.regBlock x).length = x.toNat + 1 := by
  have := x.isLt
  simp [State.regBlock, blockSize]; omega

theorem State.getElem_regBlock (s : State) (x : Nib) (j : Nat) (h : j < (s.regBlock x).length) :
    (s.regBlock x)[j] = s.getV (BitVec.ofNat 4 j) := by
  have hx := x.isLt
  rw [State.length_regBlock] at h
  have hj : j < 16 := by omega
  simp [State.regBlock, State.getV, Nat.mod_eq_of_lt hj]

/-- In range, `I` advances by the number of bytes moved with no wrap. -/
theorem State.indexAfterBlock_toNat (s : State) (x : Nib) (h : s.I.toNat + (x.toNat + 1) ≤ 4096) :
    (s.indexAfterBlock x).toNat = s.I.toNat + x.toNat + 1 := by
  have := x.isLt
  simp only [State.indexAfterBlock, blockSize, BitVec.toNat_add, BitVec.toNat_ofNat]; omega

theorem State.length_spriteRows (s : State) (n : Nib) : (s.spriteRows n).length = n.toNat := by
  simp [State.spriteRows]

theorem isKeyIndex_iff (v : Byte) : isKeyIndex v = true ↔ v.toNat ≤ 15 := by simp [isKeyIndex]

theorem length_bcdDigits (v : Byte) : (bcdDigits v).length = 3 := rfl

theorem bcdDigits_toNat (v : Byte) :
    (bcdDigits v).map BitVec.toNat = [v.toNat / 100, v.toNat / 10 % 10, v.toNat % 10] := by
  have h := v.isLt
  have h1 : v.toNat / 100 < 256 := by omega
  have h2 : v.toNat / 10 % 10 < 256 := by omega
  have h3 : v.toNat % 10 < 256 := by omega
  simp only [bcdDigits, List.map_cons, List.map_nil, BitVec.toNat_ofNat, Nat.reducePow, Nat.mod_eq_of_lt, h1, h2, h3]

/-! ## Flags and arithmetic -/

theorem addByte_toNat (a b : Byte) : (addByte a b).toNat = (a.toNat + b.toNat) % 256 := by simp [addByte]

theorem subByte_toNat (a b : Byte) : (subByte a b).toNat = (a.toNat + 256 - b.toNat) % 256 := by
  have := b.isLt
  simp only [subByte, BitVec.toNat_sub]; congr 1; omega

theorem shrByte_toNat (v : Byte) : (shrByte v).toNat = v.toNat / 2 := by
  simp [shrByte, Nat.shiftRight_eq_div_pow]

theorem shlByte_toNat (v : Byte) : (shlByte v).toNat = v.toNat * 2 % 256 := by
  simp [shlByte, Nat.shiftLeft_eq]

theorem lsbFlag_toNat (v : Byte) : (lsbFlag v).toNat = v.toNat % 2 := by
  simp [lsbFlag, Nat.and_one_is_mod]

theorem msbFlag_eq (v : Byte) : msbFlag v = if 128 ≤ v.toNat then 0x80#8 else 0x00#8 := by
  revert v; decide

/-! ## The parts of the state -/

/-- Agreement on a part can be composed. -/
theorem Part.same_trans {p : Part} {s t u : State} (h : p.same s t) (h' : p.same t u) : p.same s u := by
  cases p <;> simp_all [Part.same]

theorem Part.same_refl (p : Part) (s : State) : p.same s s := by cases p <;> simp [Part.same]

theorem unchangedBut_refl (ps : List Part) (s : State) : unchangedBut ps s s := fun p _ => p.same_refl s

/-- Fault entry changes `status` alone (R285). -/
theorem State.takeFault_unchanged (s : State) (f : Fault) : unchangedBut [.status] s (s.takeFault f) := by
  intro p hp
  cases p <;> simp_all [Part.same]

/-! ## The shape of a step -/

theorem State.isActive_iff (s : State) : s.isActive = true ↔ s.status = .active := by simp [State.isActive]

theorem step_of_no_pending {s : State} (h : s.pending = []) : step s = stepEvent s := by
  simp [step, nextEvent, h]

theorem step_of_pending {s : State} {e : Event} {es : List Event} (h : s.pending = e :: es) :
    step s = handle e (s.setPending es) := by
  simp [step, nextEvent, h]

/-- What a `Step` can do: nothing while it is not enabled, finish at the fetch limit, or execute the fetched word. -/
theorem stepEvent_cases (s : State) :
    (¬ s.stepEnabled ∧ stepEvent s = .next s) ∨
    (s.stepEnabled ∧ 4094 ≤ s.pc.toNat ∧ stepEvent s = .next (s.setStatus .finished)) ∨
    (s.stepEnabled ∧ s.pc.toNat < 4094 ∧ stepEvent s = exec (decode s.fetchWord) s.begin) := by
  unfold stepEvent State.stepEnabled execute
  cases hr : s.run <;> cases hw : s.wait.active <;> by_cases ha : s.status = .active <;>
    simp [State.isActive, ha]
  rcases Nat.lt_or_ge s.pc.toNat 4094 with h | h
  · exact Or.inr ⟨h, fun h' => absurd h' (Nat.not_le.mpr h)⟩
  · exact Or.inl ⟨h, fun h' => absurd h (Nat.not_le.mpr h')⟩

end Sys2Proof.Machine
end

