-- ==== Sys2Proof/Laws/Display.lean ====
section
/-! SUPPORT. What a draw does, pixel by pixel: the loops of R202 toggle exactly the addressed pixels, and report a collision
exactly when one of them was set. -/

namespace Sys2Proof.Machine

/-- A pixel after one pixel is set. -/
@[simp] theorem pixel_setPixel (g : Grid) (row : Fin 32) (col : Fin 64) (b : Bool) (row' : Fin 32) (col' : Fin 64) :
    pixel (setPixel g row col b) row' col' = if row' = row ∧ col' = col then b else pixel g row' col' := by
  unfold pixel setPixel
  by_cases hr : row' = row
  · subst hr
    simp [Vector.getElem_set, eq_comm, Fin.ext_iff]
  · have : row.val ≠ row'.val := fun h => hr (Fin.ext h.symm)
    simp [this, hr]

@[simp] theorem pixel_blankGrid (row : Fin 32) (col : Fin 64) : pixel blankGrid row col = false := by
  simp [pixel, blankGrid]

/-- Two grids with the same pixels are the same grid. -/
theorem grid_ext {g h : Grid} (e : ∀ row col, pixel g row col = pixel h row col) : g = h := by
  apply Vector.ext
  intro i hi
  apply Vector.ext
  intro j hj
  exact e ⟨i, hi⟩ ⟨j, hj⟩

/-- A list of sprite bits by row and column offset. -/
abbrev Bits := List (Nat × Nat × Bool)

/-- The bits of a sprite in the order in which the loops draw them. -/
def spriteBits : Nat → List Byte → Bits
  | _, [] => []
  | r, row :: rows => [0, 1, 2, 3, 4, 5, 6, 7].map (fun c => (r, c, row.getLsbD (7 - c))) ++ spriteBits (r + 1) rows

/-- A list of bits drawn in order. -/
def drawBits (x y : Nat) (bits : Bits) (acc : Grid × Bool) : Grid × Bool :=
  bits.foldl (fun a b => drawBit x y b.1 b.2.1 b.2.2 a) acc

theorem drawCols_eq (x y r : Nat) (row : Byte) (cs : List Nat) (acc : Grid × Bool) :
    drawCols x y r row cs acc = drawBits x y (cs.map fun c => (r, c, row.getLsbD (7 - c))) acc := by
  induction cs generalizing acc with
  | nil => rfl
  | cons c cs ih => simp only [drawCols, ih]; rfl

theorem drawRows_eq (x y r : Nat) (rows : List Byte) (acc : Grid × Bool) :
    drawRows x y r rows acc = drawBits x y (spriteBits r rows) acc := by
  induction rows generalizing r acc with
  | nil => rfl
  | cons row rows ih =>
    rw [drawRows, ih, drawCols_eq, spriteBits, drawBits, drawBits, drawBits, List.foldl_append]

/-- The bits of a sprite: row `r` counted from `r0`, column `c`, bit `7 - c` of the row's byte (R209). -/
theorem mem_spriteBits {r0 : Nat} {rows : List Byte} {r c : Nat} {b : Bool} :
    (r, c, b) ∈ spriteBits r0 rows ↔
      ∃ k, ∃ h : k < rows.length, r = r0 + k ∧ c < 8 ∧ b = (rows[k]).getLsbD (7 - c) := by
  induction rows generalizing r0 with
  | nil => simp [spriteBits]
  | cons row rows ih =>
    rw [spriteBits, List.mem_append, ih]
    constructor
    · rintro (h | ⟨k, hk, rfl, hc, rfl⟩)
      · obtain ⟨c', hc', he⟩ := List.mem_map.mp h
        simp only [Prod.mk.injEq] at he
        obtain ⟨rfl, rfl, rfl⟩ := he
        refine ⟨0, by simp, rfl, ?_, rfl⟩
        simp at hc'; omega
      · exact ⟨k + 1, by simpa using hk, by omega, hc, by simp⟩
    · rintro ⟨k, hk, rfl, hc, rfl⟩
      cases k with
      | zero =>
        left
        refine List.mem_map.mpr ⟨c, ?_, by simp⟩
        simp; omega
      | succ k => exact Or.inr ⟨k, by simpa using hk, by omega, hc, by simp⟩

/-- A bit addresses a pixel: it is a 1 bit and its wrapped place is the pixel's (R202). -/
def bitHits (x y : Nat) (row : Fin 32) (col : Fin 64) (b : Nat × Nat × Bool) : Prop :=
  b.2.2 = true ∧ wrapRow (y + b.1) = row ∧ wrapCol (x + b.2.1) = col

/-- The places of a sprite of at most 15 rows are distinct (R202): no display pixel is addressed twice in one call. -/
theorem spriteBits_distinct (x y r0 : Nat) (rows : List Byte) (h : rows.length ≤ 32) :
    (spriteBits r0 rows).Pairwise fun b d => ∀ row col, bitHits x y row col b → ¬ bitHits x y row col d := by
  induction rows generalizing r0 with
  | nil => simp [spriteBits]
  | cons row rows ih =>
    simp only [List.length_cons] at h
    rw [spriteBits, List.pairwise_append]
    refine ⟨?_, ih (r0 + 1) (by omega), ?_⟩
    · rw [List.pairwise_map]
      refine List.Pairwise.imp (R := fun c d : Nat => c < d ∧ d < 8) ?_ (by decide)
      rintro c d ⟨hcd, hd⟩ rr cc ⟨_, _, h1⟩ ⟨_, _, h2⟩
      have := congrArg Fin.val (h1.trans h2.symm)
      simp only [wrapCol] at this
      omega
    · rintro ⟨r, c, b⟩ hb ⟨r', c', b'⟩ hd rr cc ⟨_, h1, _⟩ ⟨_, h2, _⟩
      obtain ⟨c'', _, he⟩ := List.mem_map.mp hb
      simp only [Prod.mk.injEq] at he
      obtain ⟨k, hk, hr, _⟩ := mem_spriteBits.mp hd
      have := congrArg Fin.val (h1.trans h2.symm)
      simp only [wrapRow] at this
      omega

/-- One bit drawn: the pixel it addresses is toggled. -/
theorem pixel_drawBit (x y : Nat) (b : Nat × Nat × Bool) (acc : Grid × Bool) (row : Fin 32) (col : Fin 64)
    [Decidable (bitHits x y row col b)] :
    pixel (drawBit x y b.1 b.2.1 b.2.2 acc).1 row col =
      if bitHits x y row col b then !pixel acc.1 row col else pixel acc.1 row col := by
  obtain ⟨r, c, b⟩ := b
  cases b
  · simp [drawBit, bitHits]
  · simp only [drawBit, if_true, pixel_setPixel, bitHits, true_and]
    by_cases h : row = wrapRow (y + r) ∧ col = wrapCol (x + c)
    · obtain ⟨rfl, rfl⟩ := h; simp
    · have : ¬(wrapRow (y + r) = row ∧ wrapCol (x + c) = col) := fun ⟨a, b⟩ => h ⟨a.symm, b.symm⟩
      simp [h, this]

/-- Bits with distinct places drawn in order: exactly the addressed pixels are toggled, and the collision is that one of
them was set before, or the collision so far. -/
theorem drawBits_spec (x y : Nat) (bits : Bits)
    (hd : bits.Pairwise fun b d => ∀ row col, bitHits x y row col b → ¬ bitHits x y row col d) (acc : Grid × Bool) :
    (∀ row col, (∃ b ∈ bits, bitHits x y row col b) → pixel (drawBits x y bits acc).1 row col = !pixel acc.1 row col) ∧
    (∀ row col, (¬∃ b ∈ bits, bitHits x y row col b) → pixel (drawBits x y bits acc).1 row col = pixel acc.1 row col) ∧
    ((drawBits x y bits acc).2 = true ↔
      acc.2 = true ∨ ∃ row col, (∃ b ∈ bits, bitHits x y row col b) ∧ pixel acc.1 row col = true) := by
  classical
  induction bits generalizing acc with
  | nil => simp [drawBits]
  | cons b bits ih =>
    obtain ⟨hb, hd⟩ := List.pairwise_cons.mp hd
    have hcons : drawBits x y (b :: bits) acc = drawBits x y bits (drawBit x y b.1 b.2.1 b.2.2 acc) := rfl
    obtain ⟨ih1, ih2, ih3⟩ := ih hd (drawBit x y b.1 b.2.1 b.2.2 acc)
    rw [hcons]
    refine ⟨?_, ?_, ?_⟩
    · rintro row col ⟨d, hdm, hdh⟩
      rcases List.mem_cons.mp hdm with rfl | hdm
      · rw [ih2 row col (fun ⟨e, he, heh⟩ => hb e he row col hdh heh), pixel_drawBit, if_pos hdh]
      · rw [ih1 row col ⟨d, hdm, hdh⟩, pixel_drawBit, if_neg fun h => hb d hdm row col h hdh]
    · intro row col h
      rw [ih2 row col (fun ⟨e, he, heh⟩ => h ⟨e, by simp [he], heh⟩), pixel_drawBit,
        if_neg fun hh => h ⟨b, by simp, hh⟩]
    · rw [ih3]
      have hacc : (drawBit x y b.1 b.2.1 b.2.2 acc).2 = true ↔
          acc.2 = true ∨ ∃ row col, bitHits x y row col b ∧ pixel acc.1 row col = true := by
        obtain ⟨r, c, v⟩ := b
        cases v
        · simp [drawBit, bitHits]
        · simp [drawBit, bitHits]
      rw [hacc]
      constructor
      · rintro ((h | ⟨row, col, h, hp⟩) | ⟨row, col, ⟨d, hdm, hdh⟩, hp⟩)
        · exact Or.inl h
        · exact Or.inr ⟨row, col, ⟨b, by simp, h⟩, hp⟩
        · rw [pixel_drawBit, if_neg fun h => hb d hdm row col h hdh] at hp
          exact Or.inr ⟨row, col, ⟨d, by simp [hdm], hdh⟩, hp⟩
      · rintro (h | ⟨row, col, ⟨d, hdm, hdh⟩, hp⟩)
        · exact Or.inl (Or.inl h)
        · rcases List.mem_cons.mp hdm with rfl | hdm
          · exact Or.inl (Or.inr ⟨row, col, hdh, hp⟩)
          · refine Or.inr ⟨row, col, ⟨d, hdm, hdh⟩, ?_⟩
            rwa [pixel_drawBit, if_neg fun h => hb d hdm row col h hdh]

/-- Some 1 bit of the sprite rows, drawn at (`x`, `y`), addresses a pixel (R202). -/
def rowsHit (x y : Byte) (rows : List Byte) (row : Fin 32) (col : Fin 64) : Prop :=
  ∃ r c : Nat, ∃ h : r < rows.length, c < 8 ∧ (rows[r]).getLsbD (7 - c) = true ∧
    (y.toNat + r) % 32 = row.val ∧ (x.toNat + c) % 64 = col.val

theorem rowsHit_iff (x y : Byte) (rows : List Byte) (row : Fin 32) (col : Fin 64) :
    (∃ b ∈ spriteBits 0 rows, bitHits x.toNat y.toNat row col b) ↔ rowsHit x y rows row col := by
  constructor
  · rintro ⟨⟨r, c, b⟩, hm, hb, hr, hc⟩
    obtain ⟨k, hk, rfl, hc8, rfl⟩ := mem_spriteBits.mp hm
    refine ⟨k, c, hk, hc8, hb, ?_, ?_⟩
    · simpa [wrapRow] using congrArg Fin.val hr
    · simpa [wrapCol] using congrArg Fin.val hc
  · rintro ⟨r, c, hr, hc, hb, h1, h2⟩
    exact ⟨(r, c, true), mem_spriteBits.mpr ⟨r, hr, by simp, hc, hb.symm⟩, rfl, Fin.ext h1, Fin.ext h2⟩

/-- What a draw of at most 32 rows does (R202, R203): the addressed pixels are toggled, the others are as before, and the
collision is that an addressed pixel was set before. -/
theorem drawSprite_spec (x y : Byte) (rows : List Byte) (h : rows.length ≤ 32) (g : Grid) :
    (∀ row col, rowsHit x y rows row col → pixel (drawSprite x y rows g).1 row col = !pixel g row col) ∧
    (∀ row col, ¬ rowsHit x y rows row col → pixel (drawSprite x y rows g).1 row col = pixel g row col) ∧
    ((drawSprite x y rows g).2 = true ↔ ∃ row col, rowsHit x y rows row col ∧ pixel g row col = true) := by
  have := drawBits_spec x.toNat y.toNat _ (spriteBits_distinct x.toNat y.toNat 0 rows h) (g, false)
  simpa only [drawSprite, drawRows_eq, rowsHit_iff, Bool.false_eq_true, false_or] using this

/-- The rows of DXYN address exactly the pixels that the sprite at `I` hits (R206). -/
theorem rowsHit_spriteRows (s : State) (x y : Byte) (n : Nib) (row : Fin 32) (col : Fin 64) :
    rowsHit x y (s.spriteRows n) row col ↔ s.spriteHits x y n.toNat row col := by
  unfold rowsHit State.spriteHits State.spriteRows
  constructor
  · rintro ⟨r, c, hr, hc, hb, h1, h2⟩
    rw [State.getElem_readBytes] at hb
    exact ⟨r, c, by simpa using hr, hc, hb, h1, h2⟩
  · rintro ⟨r, c, hr, hc, hb, h1, h2⟩
    refine ⟨r, c, by simpa using hr, hc, ?_, h1, h2⟩
    rwa [State.getElem_readBytes]

end Sys2Proof.Machine
end

