-- ==== Sys2Proof/Laws/Meanings.lean ====
section
/-! SUPPORT. The instructions that can fault, one lemma for each side of the test: what `exec` answers where the instruction
runs, and that it takes the fault otherwise (spec/60_exceptions.md R281). -/

namespace Sys2Proof.Machine

variable {s : State}

theorem exec_ret_of_nonempty (h : s.sp.val ≠ 0) :
    exec .ret s = .next (s.pop.setPc (s.top + Config.retAdvance)) := by
  simp only [exec, execRet]; rw [if_neg h]

theorem exec_ret_of_empty (h : s.sp.val = 0) : exec .ret s = raiseFault (.stackUnderflow s.pc) s := by
  simp only [exec, execRet]; rw [if_pos h]

theorem exec_call_of_room {nnn : Imm12} (h : s.sp.val < 16) :
    exec (.call nnn) s = .next ((s.push s.pc h).setPc (zext12 nnn)) := by
  simp only [exec, execCall]; rw [dif_pos h]

theorem exec_call_of_full {nnn : Imm12} (h : s.sp.val = 16) :
    exec (.call nnn) s = raiseFault (.stackOverflow s.pc) s := by
  simp only [exec, execCall]; rw [dif_neg (by omega)]

theorem exec_drw_of_inRange {x y n : Nib} (h : s.I.toNat + n.toNat ≤ 4096) :
    exec (.drw x y n) s = .next (((s.displayDraw (s.getV x) (s.getV y) (s.spriteRows n)).setV vf
      (flagByte (s.displayCollision (s.getV x) (s.getV y) (s.spriteRows n)))).advance) := by
  simp only [exec, execDrw]; rw [if_pos ((s.inRange_iff _).mpr h)]

theorem exec_drw_of_past {x y n : Nib} (h : s.I.toNat + n.toNat > 4096) :
    exec (.drw x y n) s = raiseFault (.memRange s.I n.toNat) s := by
  simp only [exec, execDrw]; rw [if_neg (by rw [State.inRange_iff]; omega)]

theorem exec_skp_of_key {x : Nib} (h : (s.getV x).toNat ≤ 15) :
    exec (.skp x) s = .next (s.skipIf (s.keypadGet (keyIndex (s.getV x)) == .pressed)) := by
  simp only [exec, execSkp]; rw [if_pos ((isKeyIndex_iff _).mpr h)]

theorem exec_skp_of_past {x : Nib} (h : (s.getV x).toNat > 15) :
    exec (.skp x) s = raiseFault (.keyRange (s.getV x)) s := by
  simp only [exec, execSkp]; rw [if_neg (by rw [isKeyIndex_iff]; omega)]

theorem exec_sknp_of_key {x : Nib} (h : (s.getV x).toNat ≤ 15) :
    exec (.sknp x) s = .next (s.skipIf (s.keypadGet (keyIndex (s.getV x)) == .released)) := by
  simp only [exec, execSknp]; rw [if_pos ((isKeyIndex_iff _).mpr h)]

theorem exec_sknp_of_past {x : Nib} (h : (s.getV x).toNat > 15) :
    exec (.sknp x) s = raiseFault (.keyRange (s.getV x)) s := by
  simp only [exec, execSknp]; rw [if_neg (by rw [isKeyIndex_iff]; omega)]

theorem exec_addI_of_fits {x : Nib} (h : s.I.toNat + (s.getV x).toNat ≤ 0xFFFF) :
    exec (.addI x) s = .next (s.setI (BitVec.ofNat 16 (s.I.toNat + (s.getV x).toNat))).advance := by
  simp only [exec, execAddI]; exact if_neg (Nat.not_lt.mpr h)

theorem exec_addI_of_past {x : Nib} (h : s.I.toNat + (s.getV x).toNat > 0xFFFF) :
    exec (.addI x) s = raiseFault (.indexOverflow s.I (s.getV x)) s := by
  simp only [exec, execAddI]; exact if_pos h

theorem exec_ldB_of_inRange {x : Nib} (h : s.I.toNat + 3 ≤ 4096) :
    exec (.ldB x) s = .next (s.storeBytes s.I.toNat (bcdDigits (s.getV x))).advance := by
  simp only [exec, execLdB]; rw [if_pos ((s.inRange_iff _).mpr h)]

theorem exec_ldB_of_past {x : Nib} (h : s.I.toNat + 3 > 4096) :
    exec (.ldB x) s = raiseFault (.memRange s.I 3) s := by
  simp only [exec, execLdB]; rw [if_neg (by rw [State.inRange_iff]; omega)]

theorem exec_storeRegs_of_inRange {x : Nib} (h : s.I.toNat + x.toNat + 1 ≤ 4096) :
    exec (.storeRegs x) s =
      .next ((s.storeBytes s.I.toNat (s.regBlock x)).setI (s.indexAfterBlock x)).advance := by
  simp only [exec, execStoreRegs]; rw [if_pos ((s.inRange_iff _).mpr (by rw [blockSize]; omega))]

theorem exec_storeRegs_of_past {x : Nib} (h : s.I.toNat + x.toNat + 1 > 4096) :
    exec (.storeRegs x) s = raiseFault (.memRange s.I (x.toNat + 1)) s := by
  simp only [exec, execStoreRegs]
  exact if_neg (by rw [State.inRange_iff, blockSize]; omega)

theorem exec_loadRegs_of_inRange {x : Nib} (h : s.I.toNat + x.toNat + 1 ≤ 4096) :
    exec (.loadRegs x) s = .next ((s.loadBlock x).setI (s.indexAfterBlock x)).advance := by
  simp only [exec, execLoadRegs]; rw [if_pos ((s.inRange_iff _).mpr (by rw [blockSize]; omega))]

theorem exec_loadRegs_of_past {x : Nib} (h : s.I.toNat + x.toNat + 1 > 4096) :
    exec (.loadRegs x) s = raiseFault (.memRange s.I (x.toNat + 1)) s := by
  simp only [exec, execLoadRegs]
  exact if_neg (by rw [State.inRange_iff, blockSize]; omega)

/-- An instruction whose answer is `raiseFault` takes that fault (R285). -/
theorem Faults.of_raise {i : Instr} {f : Fault} (h : exec i s = raiseFault f s) : Faults i s f :=
  ⟨_, h, rfl, s.takeFault_unchanged f⟩

end Sys2Proof.Machine
end

