-- ==== Sys2Proof/Laws/PerInstr.lean ====
section
/-! SUPPORT. The fields of the packed formats (spec/30_encoding.md R91, R92), and one lemma per constructor: the opcode of
an instruction has the fixed bits of its own row in the table of R94, so that the row selects it. -/

namespace Sys2Proof

/-! ## The packed formats and the fields as numbers -/

theorem append_toNat {n m : Nat} (a : BitVec n) (b : BitVec m) : (a ++ b).toNat = a.toNat * 2 ^ m + b.toNat := by
  rw [BitVec.toNat_append, ← Nat.shiftLeft_add_eq_or_of_lt b.isLt, Nat.shiftLeft_eq]

theorem packNNN_toNat (a : Nib) (nnn : Imm12) : (packNNN a nnn).toNat = a.toNat * 4096 + nnn.toNat :=
  append_toNat a nnn

theorem packXNN_toNat (a x : Nib) (nn : Byte) :
    (packXNN a x nn).toNat = a.toNat * 4096 + x.toNat * 256 + nn.toNat := by
  have h := append_toNat (a ++ x) nn
  rw [append_toNat a x] at h
  exact h.trans (by omega)

theorem packXYN_toNat (a x y n : Nib) :
    (packXYN a x y n).toNat = a.toNat * 4096 + x.toNat * 256 + y.toNat * 16 + n.toNat := by
  have h := append_toNat (a ++ x ++ y) n
  rw [append_toNat (a ++ x) y, append_toNat a x] at h
  exact h.trans (by omega)

theorem wordOfBytes_toNat (hi lo : Byte) : (wordOfBytes hi lo).toNat = hi.toNat * 256 + lo.toNat :=
  append_toNat hi lo

theorem fieldA_toNat (op : Word) : (fieldA op).toNat = op.toNat / 4096 % 16 := by
  simp [fieldA, BitVec.extractLsb'_toNat, Nat.shiftRight_eq_div_pow]

theorem fieldX_toNat (op : Word) : (fieldX op).toNat = op.toNat / 256 % 16 := by
  simp [fieldX, BitVec.extractLsb'_toNat, Nat.shiftRight_eq_div_pow]

theorem fieldY_toNat (op : Word) : (fieldY op).toNat = op.toNat / 16 % 16 := by
  simp [fieldY, BitVec.extractLsb'_toNat, Nat.shiftRight_eq_div_pow]

theorem fieldN_toNat (op : Word) : (fieldN op).toNat = op.toNat % 16 := by
  simp [fieldN, BitVec.extractLsb'_toNat]

theorem fieldNN_toNat (op : Word) : (fieldNN op).toNat = op.toNat % 256 := by
  simp [fieldNN, BitVec.extractLsb'_toNat]

theorem fieldNNN_toNat (op : Word) : (fieldNNN op).toNat = op.toNat % 4096 := by
  simp [fieldNNN, BitVec.extractLsb'_toNat]

/-- Two bytes read back as the word they hold. -/
theorem wordOfBytes_extract (op : Word) : wordOfBytes (op.extractLsb' 8 8) (op.extractLsb' 0 8) = op := by
  apply BitVec.eq_of_toNat_eq
  have := op.isLt
  rw [wordOfBytes_toNat]
  simp only [BitVec.extractLsb'_toNat, Nat.shiftRight_eq_div_pow, Nat.reducePow]
  omega

/-! ## The fields of the packed formats -/

@[simp] theorem fieldA_packNNN (a : Nib) (nnn : Imm12) : fieldA (packNNN a nnn) = a := by
  apply BitVec.eq_of_toNat_eq
  have := a.isLt
  have := nnn.isLt
  rw [fieldA_toNat, packNNN_toNat]; omega

@[simp] theorem fieldNNN_packNNN (a : Nib) (nnn : Imm12) : fieldNNN (packNNN a nnn) = nnn := by
  apply BitVec.eq_of_toNat_eq
  have := a.isLt
  have := nnn.isLt
  rw [fieldNNN_toNat, packNNN_toNat]; omega

@[simp] theorem fieldA_packXNN (a x : Nib) (nn : Byte) : fieldA (packXNN a x nn) = a := by
  apply BitVec.eq_of_toNat_eq
  have := a.isLt
  have := x.isLt
  have := nn.isLt
  rw [fieldA_toNat, packXNN_toNat]; omega

@[simp] theorem fieldX_packXNN (a x : Nib) (nn : Byte) : fieldX (packXNN a x nn) = x := by
  apply BitVec.eq_of_toNat_eq
  have := a.isLt
  have := x.isLt
  have := nn.isLt
  rw [fieldX_toNat, packXNN_toNat]; omega

@[simp] theorem fieldNN_packXNN (a x : Nib) (nn : Byte) : fieldNN (packXNN a x nn) = nn := by
  apply BitVec.eq_of_toNat_eq
  have := a.isLt
  have := x.isLt
  have := nn.isLt
  rw [fieldNN_toNat, packXNN_toNat]; omega

@[simp] theorem fieldA_packXYN (a x y n : Nib) : fieldA (packXYN a x y n) = a := by
  apply BitVec.eq_of_toNat_eq
  have := a.isLt
  have := x.isLt
  have := y.isLt
  have := n.isLt
  rw [fieldA_toNat, packXYN_toNat]; omega

@[simp] theorem fieldX_packXYN (a x y n : Nib) : fieldX (packXYN a x y n) = x := by
  apply BitVec.eq_of_toNat_eq
  have := a.isLt
  have := x.isLt
  have := y.isLt
  have := n.isLt
  rw [fieldX_toNat, packXYN_toNat]; omega

@[simp] theorem fieldY_packXYN (a x y n : Nib) : fieldY (packXYN a x y n) = y := by
  apply BitVec.eq_of_toNat_eq
  have := a.isLt
  have := x.isLt
  have := y.isLt
  have := n.isLt
  rw [fieldY_toNat, packXYN_toNat]; omega

@[simp] theorem fieldN_packXYN (a x y n : Nib) : fieldN (packXYN a x y n) = n := by
  apply BitVec.eq_of_toNat_eq
  have := a.isLt
  have := x.isLt
  have := y.isLt
  have := n.isLt
  rw [fieldN_toNat, packXYN_toNat]; omega

/-! ## The masks of R94 on the packed formats -/

theorem packNNN_bit (a : Nib) (nnn : Imm12) (i : Nat) (h : i < 16) :
    (packNNN a nnn)[i] = if h' : i < 12 then nnn[i] else a[i - 12] :=
  BitVec.getElem_append (x := a) (y := nnn) h

theorem packXNN_bit (a x : Nib) (nn : Byte) (i : Nat) (h : i < 16) :
    (packXNN a x nn)[i] = if h' : i < 8 then nn[i] else if h'' : i < 12 then x[i - 8] else a[i - 12] := by
  refine (BitVec.getElem_append (x := a ++ x) (y := nn) h).trans ?_
  split
  · rfl
  · refine (BitVec.getElem_append (x := a) (y := x) _).trans ?_
    split <;> split <;> first | omega | rfl

theorem packXYN_bit (a x y n : Nib) (i : Nat) (h : i < 16) :
    (packXYN a x y n)[i] =
      if h1 : i < 4 then n[i] else if h2 : i < 8 then y[i - 4] else if h3 : i < 12 then x[i - 8] else a[i - 12] := by
  refine (BitVec.getElem_append (x := a ++ x ++ y) (y := n) h).trans ?_
  split
  · rfl
  · refine (BitVec.getElem_append (x := a ++ x) (y := y) _).trans ?_
    split
    · split <;> first | omega | rfl
    · refine (BitVec.getElem_append (x := a) (y := x) _).trans ?_
      split <;> split <;> first | omega | (split <;> first | omega | rfl)

theorem packNNN_mask (a : Nib) (nnn : Imm12) : packNNN a nnn &&& 0xF000#16 = packNNN a 0#12 := by
  ext i hi
  interval_cases i <;> simp [packNNN_bit]

theorem packXNN_maskF000 (a x : Nib) (nn : Byte) : packXNN a x nn &&& 0xF000#16 = packNNN a 0#12 := by
  ext i hi
  interval_cases i <;> simp [packNNN_bit, packXNN_bit]

theorem packXYN_maskF000 (a x y n : Nib) : packXYN a x y n &&& 0xF000#16 = packNNN a 0#12 := by
  ext i hi
  interval_cases i <;> simp [packNNN_bit, packXYN_bit]

theorem packXYN_maskF00F (a x y n : Nib) : packXYN a x y n &&& 0xF00F#16 = packXYN a 0#4 0#4 n := by
  ext i hi
  interval_cases i <;> simp [packXYN_bit]

theorem packXNN_maskF0FF (a x : Nib) (nn : Byte) : packXNN a x nn &&& 0xF0FF#16 = packXNN a 0#4 nn := by
  ext i hi
  interval_cases i <;> simp [packXNN_bit]

/-! ## One lemma per constructor -/

/-- The opcode of the instruction has the fixed bits of the instruction's row (R94). -/
def Laws.RowFixedBits.Statement (i : Instr) : Prop := encode i &&& rowMask i = rowMatch i

theorem Laws.RowFixedBits.cls : Laws.RowFixedBits.Statement .cls := rfl

theorem Laws.RowFixedBits.ret : Laws.RowFixedBits.Statement .ret := rfl

theorem Laws.RowFixedBits.jp (nnn : Imm12) : Laws.RowFixedBits.Statement (.jp nnn) :=
  packNNN_mask _ nnn

theorem Laws.RowFixedBits.call (nnn : Imm12) : Laws.RowFixedBits.Statement (.call nnn) :=
  packNNN_mask _ nnn

theorem Laws.RowFixedBits.seImm (x : Nib) (nn : Byte) : Laws.RowFixedBits.Statement (.seImm x nn) :=
  packXNN_maskF000 _ x nn

theorem Laws.RowFixedBits.sneImm (x : Nib) (nn : Byte) : Laws.RowFixedBits.Statement (.sneImm x nn) :=
  packXNN_maskF000 _ x nn

theorem Laws.RowFixedBits.seReg (x y : Nib) : Laws.RowFixedBits.Statement (.seReg x y) :=
  packXYN_maskF00F _ x y _

theorem Laws.RowFixedBits.ldImm (x : Nib) (nn : Byte) : Laws.RowFixedBits.Statement (.ldImm x nn) :=
  packXNN_maskF000 _ x nn

theorem Laws.RowFixedBits.addImm (x : Nib) (nn : Byte) : Laws.RowFixedBits.Statement (.addImm x nn) :=
  packXNN_maskF000 _ x nn

theorem Laws.RowFixedBits.ldReg (x y : Nib) : Laws.RowFixedBits.Statement (.ldReg x y) :=
  packXYN_maskF00F _ x y _

theorem Laws.RowFixedBits.orReg (x y : Nib) : Laws.RowFixedBits.Statement (.orReg x y) :=
  packXYN_maskF00F _ x y _

theorem Laws.RowFixedBits.andReg (x y : Nib) : Laws.RowFixedBits.Statement (.andReg x y) :=
  packXYN_maskF00F _ x y _

theorem Laws.RowFixedBits.xorReg (x y : Nib) : Laws.RowFixedBits.Statement (.xorReg x y) :=
  packXYN_maskF00F _ x y _

theorem Laws.RowFixedBits.addReg (x y : Nib) : Laws.RowFixedBits.Statement (.addReg x y) :=
  packXYN_maskF00F _ x y _

theorem Laws.RowFixedBits.subReg (x y : Nib) : Laws.RowFixedBits.Statement (.subReg x y) :=
  packXYN_maskF00F _ x y _

theorem Laws.RowFixedBits.shr (x y : Nib) : Laws.RowFixedBits.Statement (.shr x y) :=
  packXYN_maskF00F _ x y _

theorem Laws.RowFixedBits.subnReg (x y : Nib) : Laws.RowFixedBits.Statement (.subnReg x y) :=
  packXYN_maskF00F _ x y _

theorem Laws.RowFixedBits.shl (x y : Nib) : Laws.RowFixedBits.Statement (.shl x y) :=
  packXYN_maskF00F _ x y _

theorem Laws.RowFixedBits.sneReg (x y : Nib) : Laws.RowFixedBits.Statement (.sneReg x y) :=
  packXYN_maskF00F _ x y _

theorem Laws.RowFixedBits.ldI (nnn : Imm12) : Laws.RowFixedBits.Statement (.ldI nnn) :=
  packNNN_mask _ nnn

theorem Laws.RowFixedBits.jpV0 (nnn : Imm12) : Laws.RowFixedBits.Statement (.jpV0 nnn) :=
  packNNN_mask _ nnn

theorem Laws.RowFixedBits.rnd (x : Nib) (nn : Byte) : Laws.RowFixedBits.Statement (.rnd x nn) :=
  packXNN_maskF000 _ x nn

theorem Laws.RowFixedBits.drw (x y n : Nib) : Laws.RowFixedBits.Statement (.drw x y n) :=
  packXYN_maskF000 _ x y n

theorem Laws.RowFixedBits.skp (x : Nib) : Laws.RowFixedBits.Statement (.skp x) :=
  packXNN_maskF0FF _ x _

theorem Laws.RowFixedBits.sknp (x : Nib) : Laws.RowFixedBits.Statement (.sknp x) :=
  packXNN_maskF0FF _ x _

theorem Laws.RowFixedBits.ldVxDt (x : Nib) : Laws.RowFixedBits.Statement (.ldVxDt x) :=
  packXNN_maskF0FF _ x _

theorem Laws.RowFixedBits.ldKey (x : Nib) : Laws.RowFixedBits.Statement (.ldKey x) :=
  packXNN_maskF0FF _ x _

theorem Laws.RowFixedBits.ldDt (x : Nib) : Laws.RowFixedBits.Statement (.ldDt x) :=
  packXNN_maskF0FF _ x _

theorem Laws.RowFixedBits.ldSt (x : Nib) : Laws.RowFixedBits.Statement (.ldSt x) :=
  packXNN_maskF0FF _ x _

theorem Laws.RowFixedBits.addI (x : Nib) : Laws.RowFixedBits.Statement (.addI x) :=
  packXNN_maskF0FF _ x _

theorem Laws.RowFixedBits.ldF (x : Nib) : Laws.RowFixedBits.Statement (.ldF x) :=
  packXNN_maskF0FF _ x _

theorem Laws.RowFixedBits.ldB (x : Nib) : Laws.RowFixedBits.Statement (.ldB x) :=
  packXNN_maskF0FF _ x _

theorem Laws.RowFixedBits.storeRegs (x : Nib) : Laws.RowFixedBits.Statement (.storeRegs x) :=
  packXNN_maskF0FF _ x _

theorem Laws.RowFixedBits.loadRegs (x : Nib) : Laws.RowFixedBits.Statement (.loadRegs x) :=
  packXNN_maskF0FF _ x _

theorem Laws.RowFixedBits.unmatched (op : Word) : Laws.RowFixedBits.Statement (.unmatched op) :=
  BitVec.and_zero

end Sys2Proof
end

