-- ==== Sys2Proof/Tests/Slice0.lean ====
section
/-! SUPPORT. The model's own tests: the WellFormed smoke, decoding of words written out from the encodings of
spec/30_encoding.md R94, single steps from the vectors of spec/95_test_vectors.md (the vector's id is in each comment), and
for every statement with hypotheses a witness that meets them. -/

namespace Sys2Proof.Tests

open Sys2Proof Sys2Proof.Machine

/-! ## WellFormed: a matched opcode is no `unmatched` instruction, in each part of R98 -/

theorem test_ill_formed_unmatched_00E0 : ¬ (Instr.unmatched 0x00E0#16).WellFormed := by decide
theorem test_ill_formed_unmatched_00EE : ¬ (Instr.unmatched 0x00EE#16).WellFormed := by decide
theorem test_ill_formed_unmatched_5120 : ¬ (Instr.unmatched 0x5120#16).WellFormed := by decide
theorem test_ill_formed_unmatched_812E : ¬ (Instr.unmatched 0x812E#16).WellFormed := by decide
theorem test_ill_formed_unmatched_9120 : ¬ (Instr.unmatched 0x9120#16).WellFormed := by decide
theorem test_ill_formed_unmatched_E19E : ¬ (Instr.unmatched 0xE19E#16).WellFormed := by decide
theorem test_ill_formed_unmatched_F165 : ¬ (Instr.unmatched 0xF165#16).WellFormed := by decide
theorem test_ill_formed_unmatched_6ABC : ¬ (Instr.unmatched 0x6ABC#16).WellFormed := by decide
/-- Section 2.6 of the vectors. -/
theorem test_well_formed_unmatched :
    [0x0000#16, 0x00E1#16, 0x00FF#16, 0x0123#16, 0x5121#16, 0x8008#16, 0x800F#16, 0x9001#16, 0xE000#16, 0xE09F#16,
      0xF000#16, 0xF01F#16, 0xF075#16, 0xF085#16, 0xFFFF#16].all (fun op => (Instr.unmatched op).wellFormed) = true := by
  decide

/-! ## Decoding, each constructor by a word written out bit by bit from its row of R94 -/

theorem test_decode_fix : decode 0b0000000011100000#16 = .cls ∧ decode 0b0000000011101110#16 = .ret := by decide
theorem test_decode_nnn :
    decode 0b0001101010111100#16 = .jp 0xABC#12 ∧ decode 0b0010010001010110#16 = .call 0x456#12 ∧
    decode 0b1010011110001001#16 = .ldI 0x789#12 ∧ decode 0b1011001100000000#16 = .jpV0 0x300#12 := by decide
theorem test_decode_xnn :
    decode 0b0011001101000010#16 = .seImm 0x3#4 0x42#8 ∧ decode 0b0100001101000011#16 = .sneImm 0x3#4 0x43#8 ∧
    decode 0b0110101010111100#16 = .ldImm 0xA#4 0xBC#8 ∧ decode 0b0111001000100000#16 = .addImm 0x2#4 0x20#8 ∧
    decode 0b1100001100001111#16 = .rnd 0x3#4 0x0F#8 := by decide
theorem test_decode_skip_registers :
    decode 0b0101000100100000#16 = .seReg 0x1#4 0x2#4 ∧ decode 0b1001000100100000#16 = .sneReg 0x1#4 0x2#4 := by decide
theorem test_decode_copy_bitwise :
    decode 0b1000101110100000#16 = .ldReg 0xB#4 0xA#4 ∧ decode 0b1000000100100001#16 = .orReg 0x1#4 0x2#4 ∧
    decode 0b1000000100100010#16 = .andReg 0x1#4 0x2#4 ∧ decode 0b1000000100100011#16 = .xorReg 0x1#4 0x2#4 := by decide
theorem test_decode_arithmetic :
    decode 0b1000000100100100#16 = .addReg 0x1#4 0x2#4 ∧ decode 0b1000000100100101#16 = .subReg 0x1#4 0x2#4 ∧
    decode 0b1000001101000110#16 = .shr 0x3#4 0x4#4 ∧ decode 0b1000000100100111#16 = .subnReg 0x1#4 0x2#4 ∧
    decode 0b1000001101001110#16 = .shl 0x3#4 0x4#4 := by decide
theorem test_decode_draw : decode 0b1101000100100101#16 = .drw 0x1#4 0x2#4 0x5#4 := by decide
theorem test_decode_keys :
    decode 0b1110001110011110#16 = .skp 0x3#4 ∧ decode 0b1110001110100001#16 = .sknp 0x3#4 ∧
    decode 0b1111001100001010#16 = .ldKey 0x3#4 := by decide
theorem test_decode_timers :
    decode 0b1111010100000111#16 = .ldVxDt 0x5#4 ∧ decode 0b1111010100010101#16 = .ldDt 0x5#4 ∧
    decode 0b1111010100011000#16 = .ldSt 0x5#4 := by decide
theorem test_decode_index :
    decode 0b1111000100011110#16 = .addI 0x1#4 ∧ decode 0b1111001000101001#16 = .ldF 0x2#4 ∧
    decode 0b1111010000110011#16 = .ldB 0x4#4 ∧ decode 0b1111001001010101#16 = .storeRegs 0x2#4 ∧
    decode 0b1111000101100101#16 = .loadRegs 0x1#4 := by decide
theorem test_decode_unmatched :
    decode 0x0000#16 = .unmatched 0x0000#16 ∧ decode 0x5121#16 = .unmatched 0x5121#16 ∧
    decode 0x8128#16 = .unmatched 0x8128#16 ∧ decode 0xF01F#16 = .unmatched 0xF01F#16 := by decide
/-- R62: the byte at the lower address is the high byte. -/
theorem test_decode_bytes : decodeBytes [0x6A#8, 0xBC#8, 0x12#8] = .ok (.ldImm 0xA#4 0xBC#8, [0x12#8]) := by decide
theorem test_decode_truncated : decodeBytes [0x6A#8] = .error .truncated := by decide
theorem test_decode_table_word : decodeTableWord 16 0xD125 = some (.drw 0x1#4 0x2#4 0x5#4) := by decide
/-- R95: two different rows fix some bit that they share differently. -/
theorem test_rows_disjoint : opcodeRows.Pairwise (fun r q => r.1 &&& q.1 &&& (r.2 ^^^ q.2) ≠ 0#16) := by decide

/-! ## Small states -/

/-- A field of the next state. -/
def get {α : Type} (o : Outcome) (f : State → α) : Option α :=
  match o with
  | .next s => some (f s)
  | .fault _ => none
  | .refused _ => none

/-- The reset state with some registers set. -/
def regs (rs : List (Nib × Byte)) : State := rs.foldl (fun s r => s.setV r.1 r.2) State.reset

/-- A state with `I` set. -/
def idx (w : Word) (s : State) : State := s.setI w

/-- A state with bytes in memory. -/
def bytes (a : Nat) (bs : List Byte) (s : State) : State := s.storeBytes a bs

/-- A state with one pixel set, given as (column, row). -/
def withPixel (col : Fin 64) (row : Fin 32) (s : State) : State := { s with px := setPixel s.px row col true }

/-- The configuration with `SHIFT_USES_VY` true. -/
def vyConfig : Config := { shiftUsesVy := true, cpuHz := 600, fontSet := Font.default }

/-- A configuration whose font has every byte 0xA5 (R7: `FONT_SET` is an argument). -/
def otherFont : Config := { shiftUsesVy := false, cpuHz := 600, fontSet := Vector.replicate 80 0xA5#8 }

/-- A state with the stack pointer set. -/
def withSp (n : Fin 17) (s : State) : State := { s with sp := n }

/-- A state running, past its first instruction. -/
def running (s : State) : State := { s with run := true, started := true }

/-! ## Single instructions, from the vectors -/

/-- G1. -/
theorem test_cls : get (exec .cls (withPixel 63 31 State.reset)) (fun t => (pixel t.px 31 63, t.dirty, t.pc)) =
    some (false, true, 0x0202#16) := by decide
/-- T4. -/
theorem test_ret : get (exec .ret { withSp 1 State.reset with stack := State.reset.stack.set 0 0x0234#16, pc := 0x0456#16 })
    (fun t => (t.sp, t.pc, t.stack[0])) = some (0, 0x0236#16, 0x0234#16) := by decide
/-- T5. -/
theorem test_ret_underflow : get (exec .ret State.reset) (fun t => (t.status, t.sp, t.pc)) =
    some (.faulted (.stackUnderflow 0x0200#16), 0, 0x0200#16) := by decide
/-- T1. -/
theorem test_jp : get (exec (.jp 0xABC#12) State.reset) (·.pc) = some 0x0ABC#16 := by decide
/-- T7. -/
theorem test_call : get (exec (.call 0x400#12) { withSp 15 State.reset with pc := 0x020A#16 })
    (fun t => (t.stack[15], t.sp, t.pc)) = some (0x020A#16, 16, 0x0400#16) := by decide
/-- T6. -/
theorem test_call_overflow : get (exec (.call 0x400#12) (withSp 16 State.reset)) (fun t => (t.status, t.pc)) =
    some (.faulted (.stackOverflow 0x0200#16), 0x0200#16) := by decide
/-- T10, T11. -/
theorem test_seImm : get (exec (.seImm 3#4 0x42#8) (regs [(3#4, 0x42#8)])) (·.pc) = some 0x0204#16 ∧
    get (exec (.seImm 3#4 0x43#8) (regs [(3#4, 0x42#8)])) (·.pc) = some 0x0202#16 := by decide
/-- T12, T13. -/
theorem test_sneImm : get (exec (.sneImm 3#4 0x42#8) (regs [(3#4, 0x42#8)])) (·.pc) = some 0x0202#16 ∧
    get (exec (.sneImm 3#4 0x43#8) (regs [(3#4, 0x42#8)])) (·.pc) = some 0x0204#16 := by decide
/-- T14, T15. -/
theorem test_seReg : get (exec (.seReg 1#4 2#4) (regs [(1#4, 7#8), (2#4, 7#8)])) (·.pc) = some 0x0204#16 ∧
    get (exec (.seReg 1#4 2#4) (regs [(1#4, 7#8), (2#4, 8#8)])) (·.pc) = some 0x0202#16 := by decide
/-- T16, T17. -/
theorem test_sneReg : get (exec (.sneReg 1#4 2#4) (regs [(1#4, 7#8), (2#4, 7#8)])) (·.pc) = some 0x0202#16 ∧
    get (exec (.sneReg 1#4 2#4) (regs [(1#4, 7#8), (2#4, 8#8)])) (·.pc) = some 0x0204#16 := by decide
/-- A2. -/
theorem test_ldImm : get (exec (.ldImm 15#4 0xFF#8) State.reset) (fun t => (t.getV 15#4, t.pc)) =
    some (0xFF#8, 0x0202#16) := by decide
/-- A3. -/
theorem test_addImm : get (exec (.addImm 2#4 0x20#8) (regs [(2#4, 0xF0#8)])) (fun t => (t.getV 2#4, t.getV 15#4)) =
    some (0x10#8, 0x00#8) := by decide
/-- A4. -/
theorem test_addImm_vf : get (exec (.addImm 15#4 0x01#8) (regs [(15#4, 0xFF#8)])) (·.getV 15#4) = some 0x00#8 := by decide
/-- A5. -/
theorem test_ldReg : get (exec (.ldReg 1#4 2#4) (regs [(1#4, 0x12#8), (2#4, 0x34#8)])) (·.getV 1#4) = some 0x34#8 := by decide
/-- A6. -/
theorem test_orReg : get (exec (.orReg 1#4 2#4) (regs [(1#4, 0x0F#8), (2#4, 0xF0#8), (15#4, 0x55#8)]))
    (fun t => (t.getV 1#4, t.getV 15#4)) = some (0xFF#8, 0x55#8) := by decide
/-- A7. -/
theorem test_andReg : get (exec (.andReg 1#4 2#4) (regs [(1#4, 0x3C#8), (2#4, 0x0F#8), (15#4, 0x55#8)]))
    (fun t => (t.getV 1#4, t.getV 15#4)) = some (0x0C#8, 0x55#8) := by decide
/-- A8. -/
theorem test_xorReg : get (exec (.xorReg 1#4 2#4) (regs [(1#4, 0xFF#8), (2#4, 0x0F#8), (15#4, 0x55#8)]))
    (fun t => (t.getV 1#4, t.getV 15#4)) = some (0xF0#8, 0x55#8) := by decide
/-- A12. -/
theorem test_addReg : get (exec (.addReg 1#4 2#4) (regs [(1#4, 0xFF#8), (2#4, 0x01#8)]))
    (fun t => (t.getV 1#4, t.getV 15#4)) = some (0x00#8, 0x01#8) := by decide
/-- A15: x = 15, the sum is lost. -/
theorem test_addReg_vf : get (exec (.addReg 15#4 1#4) (regs [(15#4, 0x02#8), (1#4, 0x03#8)])) (·.getV 15#4) =
    some 0x00#8 := by decide
/-- A18. -/
theorem test_subReg : get (exec (.subReg 1#4 2#4) (regs [(1#4, 0x03#8), (2#4, 0x0A#8)]))
    (fun t => (t.getV 1#4, t.getV 15#4)) = some (0xF9#8, 0x01#8) := by decide
/-- A19. -/
theorem test_subReg_equal : get (exec (.subReg 1#4 2#4) (regs [(1#4, 7#8), (2#4, 7#8), (15#4, 1#8)]))
    (fun t => (t.getV 1#4, t.getV 15#4)) = some (0x00#8, 0x00#8) := by decide
/-- A22. -/
theorem test_subnReg : get (exec (.subnReg 1#4 2#4) (regs [(1#4, 0x0A#8), (2#4, 0x03#8)]))
    (fun t => (t.getV 1#4, t.getV 15#4)) = some (0xF9#8, 0x01#8) := by decide
/-- A25. -/
theorem test_shr : get (exec (.shr 1#4 2#4) (regs [(1#4, 0x05#8), (2#4, 0xF0#8)]))
    (fun t => (t.getV 1#4, t.getV 15#4)) = some (0x02#8, 0x01#8) := by decide
/-- A26. -/
theorem test_shr_vy : get (exec (.shr 1#4 2#4)
      { regs [(1#4, 0x05#8), (2#4, 0xF0#8)] with cfg := vyConfig })
    (fun t => (t.getV 1#4, t.getV 2#4, t.getV 15#4)) = some (0x78#8, 0xF0#8, 0x00#8) := by decide
/-- A29: the flag is 0x80. -/
theorem test_shl : get (exec (.shl 1#4 2#4) (regs [(1#4, 0x81#8), (2#4, 0x01#8)]))
    (fun t => (t.getV 1#4, t.getV 15#4)) = some (0x02#8, 0x80#8) := by decide
/-- A34. -/
theorem test_shl_vy : get (exec (.shl 15#4 2#4)
      { regs [(2#4, 0xFF#8)] with cfg := vyConfig }) (·.getV 15#4) = some 0x80#8 := by decide
/-- M1. -/
theorem test_ldI : get (exec (.ldI 0x123#12) State.reset) (·.I) = some 0x0123#16 := by decide
/-- T8. -/
theorem test_jpV0 : get (exec (.jpV0 0xFFF#12) (regs [(0#4, 0xFF#8)])) (·.pc) = some 0x10FE#16 := by decide
/-- A36: mask 0 gives 0 whatever the draw. -/
theorem test_rnd : get (exec (.rnd 3#4 0x00#8) (regs [(3#4, 0x55#8)])) (fun t => (t.draws, t.pc)) =
    some (1, 0x0202#16) ∧ ∀ b : Byte, b &&& 0x00#8 = 0x00#8 := by decide
/-- G4: wrap with a collision on the wrapped part. -/
theorem test_drw : get (exec (.drw 1#4 2#4 1#4)
      (withPixel 0 31 (bytes 0x300 [0xFF#8] (idx 0x0300#16 (regs [(1#4, 60#8), (2#4, 31#8)])))))
    (fun t => (pixel t.px 31 60, pixel t.px 31 63, pixel t.px 31 0, pixel t.px 31 3, pixel t.px 31 4, t.getV 15#4)) =
    some (true, true, false, true, false, 0x01#8) := by decide
/-- G5: vertical wrap, no collision. -/
theorem test_drw_wrap : get (exec (.drw 1#4 2#4 2#4)
      (bytes 0x300 [0x80#8, 0x80#8] (idx 0x0300#16 (regs [(1#4, 63#8), (2#4, 31#8)]))))
    (fun t => (pixel t.px 31 63, pixel t.px 0 63, t.getV 15#4, t.dirty)) = some (true, true, 0x00#8, true) := by decide
/-- K1, K5. -/
theorem test_skp : get (exec (.skp 3#4) ((regs [(3#4, 7#8)]).keypadSet 7#4 .pressed)) (·.pc) = some 0x0204#16 ∧
    get (exec (.skp 3#4) (regs [(3#4, 0x10#8)])) (fun t => (t.status, t.pc)) =
      some (.faulted (.keyRange 0x10#8), 0x0200#16) := by decide
/-- K4, K6. -/
theorem test_sknp : get (exec (.sknp 3#4) (regs [(3#4, 7#8)])) (·.pc) = some 0x0204#16 ∧
    get (exec (.sknp 3#4) ((regs [(3#4, 0xFF#8)]).keypadSet 15#4 .pressed)) (·.status) =
      some (.faulted (.keyRange 0xFF#8)) := by decide
/-- K9. -/
theorem test_ldVxDt : get (exec (.ldVxDt 5#4) (State.reset.setDT 0x2A#8)) (·.getV 5#4) = some 0x2A#8 := by decide
/-- K8: a key already held does not satisfy the wait. -/
theorem test_ldKey : get (exec (.ldKey 3#4) (State.reset.keypadSet 3#4 .pressed)) (fun t => (t.wait, t.pc)) =
    some (({ active := true, target := 3#4 } : Wait), 0x0200#16) := by decide
/-- K10. -/
theorem test_ldDt : get (exec (.ldDt 5#4) (regs [(5#4, 0x2A#8)])) (·.DT) = some 0x2A#8 := by decide
/-- K12. -/
theorem test_ldSt : get (exec (.ldSt 5#4) (State.reset.setST 0x09#8)) (fun t => (t.ST, t.beep)) =
    some (0x00#8, false) := by decide
/-- M2. -/
theorem test_addI : get (exec (.addI 1#4) (idx 0x0FFF#16 (regs [(1#4, 0x01#8)]))) (fun t => (t.I, t.getV 15#4)) =
    some (0x1000#16, 0x00#8) := by decide
/-- M4. -/
theorem test_addI_overflow : get (exec (.addI 1#4) (idx 0xFF01#16 (regs [(1#4, 0xFF#8)])))
    (fun t => (t.status, t.I, t.pc)) = some (.faulted (.indexOverflow 0xFF01#16 0xFF#8), 0xFF01#16, 0x0200#16) := by decide
/-- M7. -/
theorem test_ldF : get (exec (.ldF 2#4) (regs [(2#4, 0xFF#8)])) (·.I) = some 0x04FB#16 := by decide
/-- M9. -/
theorem test_ldB : get (exec (.ldB 4#4) (idx 0x0300#16 (regs [(4#4, 0x95#8)]))) (fun t => (t.readBytes 0x300 4, t.I)) =
    some ([1#8, 4#8, 9#8, 0#8], 0x0300#16) := by decide
/-- M13. -/
theorem test_ldB_range : get (exec (.ldB 4#4) (idx 0x0FFE#16 (regs [(4#4, 0x01#8)]))) (fun t => (t.status, t.mem)) =
    some (.faulted (.memRange 0x0FFE#16 3), []) := by decide
/-- M14. -/
theorem test_storeRegs : get (exec (.storeRegs 1#4) (idx 0x0300#16 (regs [(0#4, 1#8), (1#4, 2#8), (2#4, 3#8)])))
    (fun t => (t.readBytes 0x300 3, t.I)) = some ([1#8, 2#8, 0#8], 0x0302#16) := by decide
/-- M17. -/
theorem test_storeRegs_range : get (exec (.storeRegs 15#4) (idx 0x0FF1#16 (regs [(0#4, 0xAB#8)])))
    (fun t => (t.status, t.mem, t.I)) = some (.faulted (.memRange 0x0FF1#16 16), [], 0x0FF1#16) := by decide
/-- M20. -/
theorem test_loadRegs : get (exec (.loadRegs 1#4)
      (bytes 0x300 [0x11#8, 0x22#8, 0x33#8] (idx 0x0300#16 (regs [(2#4, 0x77#8)]))))
    (fun t => (t.getV 0#4, t.getV 1#4, t.getV 2#4, t.I)) = some (0x11#8, 0x22#8, 0x77#8, 0x0302#16) := by decide
/-- M23. -/
theorem test_loadRegs_range : get (exec (.loadRegs 1#4) (idx 0x0FFF#16 State.reset)) (fun t => (t.status, t.V)) =
    some (.faulted (.memRange 0x0FFF#16 2), State.reset.V) := by decide
/-- T18. -/
theorem test_unmatched : get (exec (decode 0x5121#16) (regs [(1#4, 7#8), (2#4, 7#8)])) (fun t => (t.pc, t.outputs)) =
    some (0x0202#16, [.diag .unknownOpcode 0x5121#16]) := by decide

/-! ## Steps and events -/

/-- The host's question: the first instruction after reset runs (source example 0x6ABC). -/
theorem test_step_first_instruction : get (step (State.reset.withFetchWord 16 0x6ABC)) (fun t => (t.getV 10#4, t.pc)) =
    some (0xBC#8, 0x0202#16) := by decide
/-- R116: a step at 4094 finishes; at 4093 it still fetches. -/
theorem test_step_finish : get (step { running State.reset with pc := 0x0FFE#16 }) (fun t => (t.status, t.pc)) =
    some (.finished, 0x0FFE#16) ∧
    get (step { running State.reset with pc := 0x0FFD#16 }) (fun t => (t.status, t.pc)) = some (.active, 0x0FFF#16) := by decide
/-- R255: a paused core does not step. -/
theorem test_step_paused : get (step State.reset) (·.pc) = some 0x0200#16 := by decide
/-- E6: an odd `pc`. -/
theorem test_step_odd : get (step { running (bytes 0x200 [0x12#8, 0x03#8, 0x00#8, 0x6A#8, 0x55#8] State.reset) with
    pc := 0x0203#16 }) (fun t => (t.getV 10#4, t.pc)) = some (0x55#8, 0x0205#16) := by decide
/-- E3. -/
theorem test_tick : get (handle .tick ((((running State.reset).setDT 2#8)).setST 0#8)) (fun t => (t.DT, t.ST)) =
    some (1#8, 0#8) := by decide
/-- E1, events 2 and 4. -/
theorem test_key_pressed :
    get (handle (.key 5#4 .pressed) ((running State.reset).setWait { active := true, target := 3#4 }))
      (fun t => (t.getV 3#4, t.wait.active, t.pc, t.lastKey, t.keypadGet 5#4)) =
      some (5#8, false, 0x0202#16, some 5#4, .released) ∧
    get (handle (.key 5#4 .pressed)
        (((running State.reset).setWait { active := true, target := 3#4 }).setLastKey (some 5#4)))
      (fun t => (t.wait.active, t.pc)) = some (true, 0x0200#16) := by decide
/-- E1, event 8. -/
theorem test_key_released :
    get (handle (.key 9#4 .released)
        (((running State.reset).setWait { active := true, target := 3#4 }).setLastKey (some 5#4)))
      (fun t => (t.lastKey, t.keypadGet 9#4)) = some (none, .released) := by decide
/-- R259. -/
theorem test_consume : get (handle .consume State.reset.displayClear) (fun t => (t.dirty, t.outputs.length)) =
    some (false, 1) := by decide
/-- E8: a reset leaves the fault and erases the program. -/
theorem test_reset_event : get (handle .reset ((bytes 0x200 [0x00#8, 0xEE#8] State.reset).takeFault (.stackUnderflow 0x0200#16)))
    (fun t => (t.status, t.readMem 0x201, t.pc)) = some (.active, 0x00#8, 0x0200#16) := by decide
/-- R257. -/
theorem test_quit : get (handle .quit State.reset) (·.status) = some .finished := by decide
/-- R262: raw execution, also while paused. -/
theorem test_exec_event : get (handle (.exec 0xA789#16) State.reset) (fun t => (t.I, t.started)) =
    some (0x0789#16, true) := by decide
/-- R258: loading; E7: too long a sequence is refused. -/
theorem test_load : get (handle (.load [0x1F#8, 0xFE#8]) State.reset) (fun t => (t.readBytes 0x200 3, t.pc)) =
    some ([0x1F#8, 0xFE#8, 0x00#8], 0x0200#16) := by decide
theorem test_load_range : (State.reset.load (List.replicate 3585 0xAA#8)).mem = [] := by
  have : (List.replicate 3585 (0xAA#8 : Byte)).length > Config.maxRom := by
    rw [List.length_replicate]; decide
  unfold State.load
  rw [if_neg (by decide), if_pos this]
  rfl
/-- The font at reset (R32, default table), M21. -/
theorem test_font : (State.reset.readBytes 0 5, State.reset.readMem 0x04F, State.reset.readMem 0x050) =
    ([0xF0#8, 0x90#8, 0x90#8, 0x90#8, 0xF0#8], 0x80#8, 0x00#8) := by decide
/-- R31, R256: another font is read after creation and after a reset. -/
theorem test_other_font : ((State.create otherFont).readMem 0x04F, (State.create otherFont).readMem 0x050) =
      (0xA5#8, 0x00#8) ∧
    get (handle .reset (bytes 0x00 [0x11#8] (State.create otherFont))) (fun t => (t.readMem 0x00, t.mem)) =
      some (0xA5#8, []) := by decide
/-- R281, R288: the codes. -/
theorem test_codes : (Fault.keyRange 0x10#8).code = 4 ∧ (Output.loadRange 3585).errorCode = some 6 := by decide
/-- The canonical form: writing what an unlisted address reads as removes the cell. -/
theorem test_memory_canonical :
    Memory.write Font.default (Memory.write Font.default [] 0x300 5#8) 0x300 0#8 = [] ∧
    Memory.write Font.default (Memory.write Font.default [] 0x301 5#8) 0x300 6#8 = [(0x300, 6#8), (0x301, 5#8)] := by decide

/-! ## Witnesses: for every statement with hypotheses, states and operands that meet them, for each clause at the boundary
of its range. Each is named after its statement. -/

/-- A core that waits for a key, as FX0A leaves it. -/
def waiting : State := (running State.reset).setWait { active := true, target := 3#4 }

/-- A core whose run is over. -/
def faulted : State := State.reset.takeFault (.keyRange 0x10#8)

theorem witness_DecodeEncodeRoundTrip : (Instr.drw 15#4 0#4 15#4).WellFormed ∧ (Instr.unmatched 0x8008#16).WellFormed := by
  decide
theorem not_selected {op : Word} (h : opcodeRows.all (fun row => !rowSelects row op) = true) :
    ∀ row ∈ opcodeRows, op &&& row.1 ≠ row.2 := fun row hr he => by
  have := List.all_eq_true.mp h row hr
  rw [rowSelects, beq_iff_eq.mpr he] at this
  exact absurd this (by decide)
theorem witness_RowsSelectByMaskAndMatch :
    ((0xF000#16, 0x6000#16) ∈ opcodeRows ∧ 0x6ABC#16 &&& 0xF000#16 = 0x6000#16) ∧
    (∀ row ∈ opcodeRows, 0x0000#16 &&& row.1 ≠ row.2) :=
  ⟨⟨by simp [opcodeRows], by decide⟩, not_selected (by decide)⟩
/-- For each clause `Decodes`: the row's own match is an opcode that the row selects. -/
theorem witness_Decodes : opcodeRows.all (fun row => rowSelects row row.2) = true := by decide
theorem witness_StepRunsTheDecodedInstruction :
    let s := { running (bytes 0xFFD [0x6A#8, 0xBC#8] State.reset) with pc := 0x0FFD#16 }
    s.pending = [] ∧ s.stepEnabled ∧ s.pc.toNat < 4094 ∧
      decodeBytes [s.readMem s.pc.toNat, s.readMem (s.pc.toNat + 1)] = .ok (.ldImm 10#4 0xBC#8, []) := by decide
theorem witness_FetchIsBigEndian :
    let s := running (bytes 0x200 [0x6A#8, 0xBC#8] State.reset)
    s.pending = [] ∧ s.stepEnabled ∧ s.pc.toNat < 4094 ∧
      (0x6ABC#16 : Word).toNat = (s.readMem s.pc.toNat).toNat * 256 + (s.readMem (s.pc.toNat + 1)).toNat := by decide
theorem witness_StepFinishesAtFetchLimit :
    let s := { running State.reset with pc := 0x0FFE#16 }
    s.pending = [] ∧ s.stepEnabled ∧ 4094 ≤ s.pc.toNat := by decide
theorem witness_StepDisabledChangesNothing :
    (faulted.pending = [] ∧ faulted.status ≠ .active) ∧ (State.reset.pending = [] ∧ State.reset.run = false) ∧
    (waiting.pending = [] ∧ waiting.wait.active = true) := by decide
theorem witness_StepTakesThePendingEvent : (State.reset.setPending [.quit, .reset]).pending = .quit :: [.reset] := by decide
theorem witness_CallPushesAndJumps : (withSp 15 State.reset).sp.val < 16 ∧ (withSp 16 State.reset).sp.val = 16 := by decide
theorem witness_ReturnPopsAndAdvances :
    (withSp 1 State.reset).sp.val = 0 + 1 ∧ (withSp 16 State.reset).sp.val = 15 + 1 ∧ State.reset.sp.val = 0 := by decide
theorem witness_SkipOnRegisters :
    ((fieldA 0x5121#16 = 0x5#4 ∨ fieldA 0x5121#16 = 0x9#4) ∧ fieldN 0x5121#16 ≠ 0#4) ∧
    ((fieldA 0x912F#16 = 0x5#4 ∨ fieldA 0x912F#16 = 0x9#4) ∧ fieldN 0x912F#16 ≠ 0#4) := by decide
theorem witness_UnmatchedIsNoOperation : ∀ row ∈ opcodeRows, 0xFFFF#16 &&& row.1 ≠ row.2 := not_selected (by decide)
theorem witness_CallThenReturnResumes : State.reset.sp.val < 16 ∧ (withSp 15 State.reset).sp.val < 16 := by decide
theorem witness_ShiftRightSetsLowBit :
    let s := regs [(1#4, 0x05#8), (2#4, 0xF0#8)]
    let q := { s with cfg := vyConfig }
    0x05#8 = (if s.cfg.shiftUsesVy = true then s.getV 2#4 else s.getV 1#4) ∧
    0xF0#8 = (if q.cfg.shiftUsesVy = true then q.getV 2#4 else q.getV 1#4) := by decide
theorem witness_ShiftLeftSetsRawHighBit :
    let s := regs [(15#4, 0x81#8), (2#4, 0x7F#8)]
    let q := { s with cfg := vyConfig }
    0x81#8 = (if s.cfg.shiftUsesVy = true then s.getV 2#4 else s.getV 15#4) ∧
    0x7F#8 = (if q.cfg.shiftUsesVy = true then q.getV 2#4 else q.getV 15#4) := by decide
theorem witness_AddToIndexIsExact :
    let s := idx 0xFF00#16 (regs [(1#4, 0xFF#8)])
    let q := idx 0xFF01#16 (regs [(1#4, 0xFF#8)])
    s.I.toNat + (s.getV 1#4).toNat ≤ 0xFFFF ∧ q.I.toNat + (q.getV 1#4).toNat > 0xFFFF := by decide
theorem witness_BcdStoresThreeDigits :
    (idx 0x0FFD#16 State.reset).I.toNat + 3 ≤ 4096 ∧ (idx 0x0FFE#16 State.reset).I.toNat + 3 > 4096 := by decide
theorem witness_StoreRegistersAdvancesIndex :
    (idx 0x0FF0#16 State.reset).I.toNat + (15#4 : Nib).toNat + 1 ≤ 4096 ∧
    (idx 0x0FF1#16 State.reset).I.toNat + (15#4 : Nib).toNat + 1 > 4096 := by decide
theorem witness_LoadRegistersAdvancesIndex :
    (idx 0x0FFF#16 State.reset).I.toNat + (0#4 : Nib).toNat + 1 ≤ 4096 ∧
    (idx 0x1000#16 State.reset).I.toNat + (0#4 : Nib).toNat + 1 > 4096 := by decide
theorem witness_StoreIsSeenByNextFetch :
    let s := idx 0x0FFD#16 { running State.reset with pc := 0x0FFB#16 }
    s.pending = [] ∧ s.stepEnabled ∧ 1 ≤ (1#4 : Nib).toNat ∧ s.pc.toNat < 4092 ∧ s.I.toNat = s.pc.toNat + 2 ∧
      s.I.toNat + (1#4 : Nib).toNat + 1 ≤ 4096 := by decide
theorem witness_CanonicalMemoriesThatReadAlikeAreEqual :
    let m : Memory := [(0x000, 0x00#8), (0x300, 0x05#8)]
    let f := Font.default
    Memory.wf f m ∧ Memory.wf f m ∧ ∀ a, Memory.read f m a = Memory.read f m a := ⟨by decide, by decide, fun _ => rfl⟩
theorem witness_DrawTogglesAddressedPixels :
    (idx 0x0FF1#16 State.reset).I.toNat + (15#4 : Nib).toNat ≤ 4096 ∧
    (idx 0x0FF2#16 State.reset).I.toNat + (15#4 : Nib).toNat > 4096 := by decide
/-- The two cases of a pixel: under the top left 1 bit of the glyph of digit 0 at the origin, and beside it. -/
theorem witness_DrawTogglesAddressedPixels_hit :
    State.reset.spriteHits 0#8 0#8 5 0 0 ∧ ¬ State.reset.spriteHits 0#8 0#8 5 5 0 := by
  refine ⟨⟨0, 0, by decide⟩, ?_⟩
  rintro ⟨r, c, hr, -, -, h, -⟩
  simp only [BitVec.toNat_ofNat, Nat.zero_mod, Nat.zero_add] at h
  have : ((5 : Fin 32) : Nat) = 5 := rfl
  omega
theorem witness_DrawTwiceRestoresThePixels :
    (1#4 : Nib) ≠ 15#4 ∧ (2#4 : Nib) ≠ 15#4 ∧ State.reset.I.toNat + (5#4 : Nib).toNat ≤ 4096 := by decide
theorem witness_SkipOnKeyState :
    ((regs [(3#4, 0x0F#8)]).getV 3#4).toNat = (15#4 : Nib).toNat ∧ ((regs [(3#4, 0x10#8)]).getV 3#4).toNat > 15 := by decide
theorem witness_TickCountsDownToZero :
    (running State.reset).tickEnabled ∧ ¬ State.reset.tickEnabled ∧ waiting.tickEnabled := by decide
theorem witness_EndWaitDeliversTheKey : waiting.wait.active = true ∧ State.reset.wait.active = false := by decide
theorem witness_KeyPressCompletesTheWait :
    State.reset.status = .active ∧ State.reset.lastKey ≠ some 5#4 ∧
      (State.reset.setLastKey (some 4#4)).lastKey ≠ some 5#4 := by decide
theorem witness_waiting_inv : waiting.Inv where
  memWf := by decide
  memInRange := by decide
  pcBound := by decide
  stackBound := fun k _ hk => absurd hk (Nat.not_lt_zero k)
  waitBound := by decide
  notStarted := by decide
theorem witness_WaitEndsOnlyByPressOrReset :
    waiting.Inv ∧ waiting.status = .active ∧ waiting.wait.active = true ∧ Event.tick ≠ .reset ∧
      (∀ k, Event.tick ≠ .key k .pressed) ∧ handle .tick waiting = .next waiting.tick :=
  ⟨witness_waiting_inv, rfl, rfl, by decide, by decide, rfl⟩
theorem witness_KeyPressByWaitAndLastKey :
    faulted.status ≠ .active ∧ (State.reset.status = .active ∧ State.reset.wait.active = false) ∧
    (waiting.status = .active ∧ waiting.wait.active = true ∧ waiting.lastKey ≠ some 5#4) ∧
    (let s := waiting.setLastKey (some 5#4); s.status = .active ∧ s.wait.active = true ∧ s.lastKey = some 5#4) := by decide
theorem witness_KeyReleaseByWait :
    faulted.status ≠ .active ∧ (State.reset.status = .active ∧ State.reset.wait.active = false) ∧
    (waiting.status = .active ∧ waiting.wait.active = true) := by decide
theorem witness_QuitFinishesAnActiveCore : State.reset.status = .active ∧ faulted.status ≠ .active := by decide
theorem witness_LoadWritesTheProgramOrNothing :
    State.reset.status = .active ∧ State.reset.started = false ∧ (List.replicate 3584 0xAA#8).length ≤ 3584 ∧
    (List.replicate 3585 0xAA#8).length > 3584 ∧ faulted.status ≠ .active ∧ waiting.started = true := by
  simp only [List.length_replicate]; decide
theorem witness_ConsumeDeliversAndClearsDirty :
    (State.reset.displayClear.status = .active ∧ State.reset.displayClear.dirty = true) ∧ faulted.status ≠ .active ∧
    State.reset.dirty = false := by decide
theorem witness_ExecRunsTheGivenOpcode :
    let s := { State.reset with pc := 0x0FFD#16 }
    let q := { State.reset with pc := 0x0FFE#16 }
    (s.status = .active ∧ s.wait.active = false ∧ s.pc.toNat < 4094) ∧ faulted.status ≠ .active ∧
    waiting.wait.active = true ∧ 4094 ≤ q.pc.toNat := by decide
theorem witness_InactiveCoreIsFrozen :
    faulted.status ≠ .active ∧ Event.tick ≠ .reset ∧ ∀ b, Event.tick ≠ .run b := by decide
theorem witness_BootRunsTheLoadedProgram :
    let s := faulted.setPending [.reset, .load (0x6A#8 :: 0xBC#8 :: List.replicate 3582 0x00#8), .run true]
    (List.replicate 3582 0x00#8).length + 2 ≤ 3584 ∧
      s.pending = [.reset, .load (0x6A#8 :: 0xBC#8 :: List.replicate 3582 0x00#8), .run true] := by
  refine ⟨?_, rfl⟩
  rw [List.length_replicate]
theorem witness_FaultsExactlyByTheTable :
    faultOf (.ldB 4#4) (idx 0x0FFE#16 State.reset) = some (.memRange 0x0FFE#16 3) ∧
    faultOf (.ldB 4#4) (idx 0x0FFD#16 State.reset) = none := by decide
theorem witness_InstructionsWriteOnlyTheirParts :
    let s := idx 0x0FF0#16 State.reset
    (faultOf (.storeRegs 15#4) s = none ∧ ∃ t, exec (.storeRegs 15#4) s = .next t) ∧
    (writesByte (.storeRegs 15#4) s 0xFFF ∧ ¬ writesByte (.storeRegs 15#4) s 0xFEF) ∧
    (writesByte (.ldB 4#4) s 0xFF2 ∧ ¬ writesByte (.ldB 4#4) s 0xFF3) ∧
    (writesReg (.loadRegs 3#4) 3#4 ∧ ¬ writesReg (.loadRegs 3#4) 4#4) ∧
    (writesReg (.shl 1#4 2#4) 15#4 ∧ ¬ writesReg (.shl 1#4 2#4) 2#4) ∧
    (writesEntry (.call 0#12) s 0 ∧ ¬ writesEntry (.call 0#12) s 1) ∧
    ¬ writesPixel .ret s 0 0 := by
  refine ⟨⟨by decide, _, rfl⟩, ?_⟩
  simp only [writesByte, writesReg, writesEntry, writesPixel]
  decide
theorem witness_running_inv : (running State.reset).Inv where
  memWf := by decide
  memInRange := by decide
  pcBound := by decide
  stackBound := fun k _ hk => absurd hk (Nat.not_lt_zero k)
  waitBound := by decide
  notStarted := by decide
theorem witness_PcMovesByTheTable :
    (running State.reset).Inv ∧ (running State.reset).pc.toNat < 4094 ∧
      (∃ t, exec (.jpV0 0xFFF#12) (running State.reset) = .next t) ∧ ∃ t, exec .ret (running State.reset) = .next t :=
  ⟨witness_running_inv, by decide, ⟨_, rfl⟩, _, rfl⟩
theorem witness_InstructionsDoNotReadHostState :
    unchangedBut [.soundTimer, .dirty, .lastKey, .run, .started, .pending, .outputs] State.reset
        ((running State.reset).setST 9#8) ∧ ∃ t, exec (.ldSt 0#4) State.reset = .next t := by
  refine ⟨?_, _, rfl⟩
  intro p hp
  cases p <;> first | exact absurd (by decide) hp | rfl | exact fun _ => rfl | exact fun _ _ => rfl |
    exact ⟨rfl, fun _ _ => rfl⟩
theorem witness_StepKeepsTheConfiguration : ∃ t, step (running State.reset) = .next t := ⟨_, rfl⟩
theorem witness_StepKeepsTheInvariant : (running State.reset).Inv ∧ ∃ t, step (running State.reset) = .next t :=
  ⟨witness_running_inv, _, rfl⟩
/-- The registers other than 15, and register 15, that the flag clauses tell apart. -/
theorem witness_flag_register_clauses :
    (1#4 : Nib) ≠ 15#4 ∧ ¬ (15#4 : Nib) ≠ 15#4 ∧ (0#4 : Nib) ≠ 1#4 ∧ (0#4 : Nib) ≠ 15#4 := by decide

end Sys2Proof.Tests
end

/-! PROOFS of the family 10_state. What an instruction answers, said once (`effect`); the frame of every operation and of
every instruction; the invariant of the core; noninterference of the host's state. -/

namespace Sys2Proof.Machine

/-! ## A canonical memory is known by what it reads (log entry 7) -/

theorem Memory.read_of_not_listed {f : Font} {m : Memory} {a : Nat} (h : ∀ c ∈ m, c.1 ≠ a) :
    m.read f a = Memory.unlisted f a := by
  induction m with
  | nil => rfl
  | cons c m ih => rw [Memory.read, if_neg (h c (by simp)), ih fun d hd => h d (by simp [hd])]

/-- A listed cell is what its address reads as: no earlier cell has the same address. -/
theorem Memory.read_of_mem {f : Font} {m : Memory} {c : Host.Cell} (h : m.Pairwise fun c d => c.1 < d.1) (hc : c ∈ m) :
    m.read f c.1 = c.2 := by
  induction m with
  | nil => simp at hc
  | cons d m ih =>
    obtain ⟨hd, hm⟩ := List.pairwise_cons.mp h
    rcases List.mem_cons.mp hc with rfl | hc
    · exact if_pos rfl
    · rw [Memory.read, if_neg (hd c hc).ne, ih hm hc]

/-- The cells of a canonical memory are exactly the addresses that do not read as unlisted, with what they read as. -/
theorem Memory.mem_iff_read {f : Font} {m : Memory} (h : m.wf f) (c : Host.Cell) :
    c ∈ m ↔ m.read f c.1 = c.2 ∧ c.2 ≠ Memory.unlisted f c.1 := by
  refine ⟨fun hc => ⟨Memory.read_of_mem h.1 hc, h.2 c hc⟩, fun ⟨hr, hu⟩ => ?_⟩
  have ⟨d, hd, ha⟩ : ∃ d ∈ m, d.1 = c.1 := by
    by_contra hn
    exact hu (hr ▸ Memory.read_of_not_listed fun d hd ha => hn ⟨d, hd, ha⟩)
  have hdc : d = c := Prod.ext ha (by rw [← hr, ← ha, Memory.read_of_mem h.1 hd])
  exact hdc ▸ hd

/-- Settles O32: two canonical memories that read alike have the same cells, and both list them by strictly rising
address. -/
theorem canonicalMemoriesThatReadAlikeAreEqual : Obligations.CanonicalMemoriesThatReadAlikeAreEqual := by
  intro f m m' h h' hr
  refine List.Pairwise.eq_of_mem_iff (r := InvImage (· < ·) Prod.fst) h.1 h'.1 fun c => ?_
  rw [Memory.mem_iff_read h, Memory.mem_iff_read h', hr]

/-! ## The state after creation (R40) -/

theorem State.create_hasResetValues (c : Config) : (State.create c).HasResetValues where
  regs r := by simp [State.getV, State.create, State.reset]
  index := rfl
  pc := rfl
  stack k h := by simp [State.create, State.reset]
  sp := rfl
  timers := ⟨rfl, rfl⟩
  wait := rfl
  font a h := dif_pos h
  zero a h _ := dif_neg (Nat.not_lt.mpr h)
  pixels row col := pixel_blankGrid row col
  dirty := rfl
  keypad k := by simp [State.keypadGet, State.create, State.reset]
  lastKey := rfl
  status := rfl
  beep := rfl

theorem State.create_inv (c : Config) : (State.create c).Inv where
  memWf := ⟨.nil, nofun⟩
  memInRange := nofun
  pcBound := (by decide : (0x0200#16 : Word).toNat ≤ 0x10FE)
  stackBound k _ hk := absurd hk (Nat.not_lt_zero k)
  waitBound := nofun
  notStarted _ := ⟨rfl, rfl⟩

/-- Settles O46: `State.reset` is creation with its own configuration. -/
theorem creationHasTheResetValues : Obligations.CreationHasTheResetValues :=
  ⟨State.create_hasResetValues State.reset.cfg, fun c => ⟨State.create_hasResetValues c, rfl⟩⟩

/-- Settles O59: `State.reset` is creation with its own configuration. -/
theorem creationMeetsTheInvariant : Obligations.CreationMeetsTheInvariant :=
  ⟨State.create_inv State.reset.cfg, State.create_inv⟩

end Sys2Proof.Machine

/-! ## What an instruction answers -/

namespace Sys2Proof.Machine

/-- The state that an instruction leaves where it does not fault; `exec_of_no_fault` ties it to `exec`. -/
def effect (i : Instr) (s : State) : State :=
  match i with
  | .cls => s.displayClear.advance
  | .ret => s.pop.setPc (s.top + Config.retAdvance)
  | .jp nnn => s.setPc (zext12 nnn)
  | .call nnn => if h : s.sp.val < 16 then (s.push s.pc h).setPc (zext12 nnn) else s
  | .seImm x nn => s.skipIf (s.getV x == nn)
  | .sneImm x nn => s.skipIf (s.getV x != nn)
  | .seReg x y => s.skipIf (s.getV x == s.getV y)
  | .ldImm x nn => (s.setV x nn).advance
  | .addImm x nn => (s.setV x (addByte (s.getV x) nn)).advance
  | .ldReg x y => (s.setV x (s.getV y)).advance
  | .orReg x y => (s.setV x (s.getV x ||| s.getV y)).advance
  | .andReg x y => (s.setV x (s.getV x &&& s.getV y)).advance
  | .xorReg x y => (s.setV x (s.getV x ^^^ s.getV y)).advance
  | .addReg x y => (s.setResultFlag x (addByte (s.getV x) (s.getV y)) (carryFlag (s.getV x) (s.getV y))).advance
  | .subReg x y => (s.setResultFlag x (subByte (s.getV x) (s.getV y)) (borrowFlag (s.getV x) (s.getV y))).advance
  | .shr x y => (s.setResultFlag x (shrByte (s.shiftSource x y)) (lsbFlag (s.shiftSource x y))).advance
  | .subnReg x y => (s.setResultFlag x (subByte (s.getV y) (s.getV x)) (borrowFlag (s.getV y) (s.getV x))).advance
  | .shl x y => (s.setResultFlag x (shlByte (s.shiftSource x y)) (msbFlag (s.shiftSource x y))).advance
  | .sneReg x y => s.skipIf (s.getV x != s.getV y)
  | .ldI nnn => (s.setI (zext12 nnn)).advance
  | .jpV0 nnn => s.setPc (jumpV0Target nnn (s.getV 0#4))
  | .rnd x nn => (s.drawn.setV x (Config.rnd8 s.draws &&& nn)).advance
  | .drw x y n => ((s.displayDraw (s.getV x) (s.getV y) (s.spriteRows n)).setV vf
      (flagByte (s.displayCollision (s.getV x) (s.getV y) (s.spriteRows n)))).advance
  | .skp x => s.skipIf (s.keypadGet (keyIndex (s.getV x)) == .pressed)
  | .sknp x => s.skipIf (s.keypadGet (keyIndex (s.getV x)) == .released)
  | .ldVxDt x => (s.setV x s.DT).advance
  | .ldKey x => s.setWait { active := true, target := x }
  | .ldDt x => (s.setDT (s.getV x)).advance
  | .ldSt x => (s.setST (s.getV x)).advance
  | .addI x => (s.setI (BitVec.ofNat 16 (s.indexSum x))).advance
  | .ldF x => (s.setI (glyphAddress (s.getV x))).advance
  | .ldB x => (s.storeBytes s.I.toNat (bcdDigits (s.getV x))).advance
  | .storeRegs x => ((s.storeBytes s.I.toNat (s.regBlock x)).setI (s.indexAfterBlock x)).advance
  | .loadRegs x => ((s.loadBlock x).setI (s.indexAfterBlock x)).advance
  | .unmatched op => (s.emit (.diag .unknownOpcode op)).advance

theorem effect_call_of_room {s : State} {nnn : Imm12} (h : s.sp.val < 16) :
    effect (.call nnn) s = (s.push s.pc h).setPc (zext12 nnn) := dif_pos h

/-- Where a row of the table of R281 names no fault, its condition does not hold. -/
theorem not_of_ite_some_eq_none {c : Prop} [Decidable c] {f : Fault} (h : (if c then some f else none) = none) : ¬ c :=
  fun hc => by simp [hc] at h

theorem room_of_no_fault {s : State} {nnn : Imm12} (h : faultOf (.call nnn) s = none) : s.sp.val < 16 := by
  have := not_of_ite_some_eq_none h
  omega

theorem nonempty_of_no_fault {s : State} (h : faultOf .ret s = none) : s.sp.val ≠ 0 := not_of_ite_some_eq_none h

theorem ldB_inRange_of_no_fault {s : State} {x : Nib} (h : faultOf (.ldB x) s = none) : s.I.toNat + 3 ≤ 4096 :=
  Nat.not_lt.mp (not_of_ite_some_eq_none h)

theorem storeRegs_inRange_of_no_fault {s : State} {x : Nib} (h : faultOf (.storeRegs x) s = none) :
    s.I.toNat + x.toNat + 1 ≤ 4096 :=
  Nat.not_lt.mp (not_of_ite_some_eq_none h)

/-- An instruction for which the table of R281 names no fault completes with its effect. -/
theorem exec_of_no_fault {i : Instr} {s : State} (h : faultOf i s = none) : exec i s = .next (effect i s) := by
  cases i with
  | ret => exact exec_ret_of_nonempty (nonempty_of_no_fault h)
  | call nnn => rw [exec_call_of_room (room_of_no_fault h), effect_call_of_room]
  | drw x y n => exact exec_drw_of_inRange (Nat.not_lt.mp (not_of_ite_some_eq_none h))
  | skp x => exact exec_skp_of_key (Nat.not_lt.mp (not_of_ite_some_eq_none h))
  | sknp x => exact exec_sknp_of_key (Nat.not_lt.mp (not_of_ite_some_eq_none h))
  | addI x => exact exec_addI_of_fits (Nat.not_lt.mp (not_of_ite_some_eq_none h))
  | ldB x => exact exec_ldB_of_inRange (ldB_inRange_of_no_fault h)
  | storeRegs x => exact exec_storeRegs_of_inRange (storeRegs_inRange_of_no_fault h)
  | loadRegs x => exact exec_loadRegs_of_inRange (Nat.not_lt.mp (not_of_ite_some_eq_none h))
  | _ => rfl

/-- Where a row of the table of R281 names a fault, its condition holds. -/
theorem and_eq_of_ite_eq_some {c : Prop} [Decidable c] {f f' : Fault} (h : (if c then some f else none) = some f') :
    c ∧ f = f' := by
  simpa using h

/-- An instruction for which the table of R281 names a fault takes it. -/
theorem exec_of_fault {i : Instr} {s : State} {f : Fault} (h : faultOf i s = some f) : exec i s = raiseFault f s := by
  cases i with
  | ret => obtain ⟨hc, rfl⟩ := and_eq_of_ite_eq_some h; exact exec_ret_of_empty hc
  | call nnn => obtain ⟨hc, rfl⟩ := and_eq_of_ite_eq_some h; exact exec_call_of_full hc
  | drw x y n => obtain ⟨hc, rfl⟩ := and_eq_of_ite_eq_some h; exact exec_drw_of_past hc
  | skp x => obtain ⟨hc, rfl⟩ := and_eq_of_ite_eq_some h; exact exec_skp_of_past hc
  | sknp x => obtain ⟨hc, rfl⟩ := and_eq_of_ite_eq_some h; exact exec_sknp_of_past hc
  | addI x => obtain ⟨hc, rfl⟩ := and_eq_of_ite_eq_some h; exact exec_addI_of_past hc
  | ldB x => obtain ⟨hc, rfl⟩ := and_eq_of_ite_eq_some h; exact exec_ldB_of_past hc
  | storeRegs x => obtain ⟨hc, rfl⟩ := and_eq_of_ite_eq_some h; exact exec_storeRegs_of_past hc
  | loadRegs x => obtain ⟨hc, rfl⟩ := and_eq_of_ite_eq_some h; exact exec_loadRegs_of_past hc
  | _ => cases h

/-- What an instruction can answer: a fault of the table of R281, or its effect. -/
theorem exec_cases {i : Instr} {s t : State} (h : exec i s = .next t) :
    (∃ f, faultOf i s = some f ∧ t = s.takeFault f) ∨ (faultOf i s = none ∧ t = effect i s) := by
  cases hf : faultOf i s with
  | some f =>
    rw [exec_of_fault hf] at h
    cases h
    exact .inl ⟨f, rfl, rfl⟩
  | none =>
    rw [exec_of_no_fault hf] at h
    cases h
    exact .inr ⟨rfl, rfl⟩

end Sys2Proof.Machine

/-! ## The frame of every operation and of every instruction -/

namespace Sys2Proof.Machine

theorem Part.same_symm {p : Part} {s t : State} (h : p.same s t) : p.same t s := by cases p <;> simp_all [Part.same]

theorem unchangedBut.trans {ps qs : List Part} {s t u : State} (h : unchangedBut ps s t) (h' : unchangedBut qs t u) :
    unchangedBut (ps ++ qs) s u := fun p hp =>
  Part.same_trans (h p fun hm => hp (List.mem_append_left qs hm)) (h' p fun hm => hp (List.mem_append_right ps hm))

theorem unchangedBut.mono {ps qs : List Part} {s t : State} (h : unchangedBut ps s t) (hpq : ps ⊆ qs) :
    unchangedBut qs s t := fun p hp => h p fun hm => hp (hpq hm)

section
variable (s : State)

theorem State.setV_unchanged (x : Nib) (b : Byte) : unchangedBut [.regs] s (s.setV x b) := by
  intro p hp
  cases p <;> simp_all [Part.same]

theorem State.setResultFlag_unchanged (x : Nib) (r f : Byte) : unchangedBut [.regs] s (s.setResultFlag x r f) :=
  ((s.setV_unchanged x r).trans (State.setV_unchanged _ vf f)).mono (by simp)

theorem State.loadBlock_unchanged (x : Nib) : unchangedBut [.regs] s (s.loadBlock x) := by
  intro p hp
  cases p <;> simp_all [Part.same]

theorem State.setI_unchanged (w : Word) : unchangedBut [.index] s (s.setI w) := by
  intro p hp
  cases p <;> simp_all [Part.same]

theorem State.setPc_unchanged (w : Word) : unchangedBut [.pc] s (s.setPc w) := by
  intro p hp
  cases p <;> simp_all [Part.same]

theorem State.advance_unchanged : unchangedBut [.pc] s s.advance := s.setPc_unchanged _

theorem State.skipIf_unchanged (c : Bool) : unchangedBut [.pc] s (s.skipIf c) := s.setPc_unchanged _

theorem State.push_unchanged (w : Word) (h : s.sp.val < 16) : unchangedBut [.stack] s (s.push w h) := by
  intro p hp
  cases p <;> simp_all [Part.same]

theorem State.pop_unchanged : unchangedBut [.stack] s s.pop := by
  intro p hp
  cases p <;> simp_all [Part.same]

theorem State.setDT_unchanged (b : Byte) : unchangedBut [.delayTimer] s (s.setDT b) := by
  intro p hp
  cases p <;> simp_all [Part.same]

theorem State.setST_unchanged (b : Byte) : unchangedBut [.soundTimer] s (s.setST b) := by
  intro p hp
  cases p <;> simp_all [Part.same]

theorem State.setWait_unchanged (w : Wait) : unchangedBut [.wait] s (s.setWait w) := by
  intro p hp
  cases p <;> simp_all [Part.same]

theorem State.storeBytes_unchanged (a : Nat) (bs : List Byte) : unchangedBut [.memory] s (s.storeBytes a bs) := by
  intro p hp
  cases p <;> simp_all [Part.same]

theorem State.setPx_unchanged (g : Grid) : unchangedBut [.pixels, .dirty] s (s.setPx g) := by
  intro p hp
  cases p <;> simp_all [Part.same]

theorem State.drawn_unchanged : unchangedBut [.draws] s s.drawn := by
  intro p hp
  cases p <;> simp_all [Part.same]

theorem State.emit_unchanged (o : Output) : unchangedBut [.outputs] s (s.emit o) := by
  intro p hp
  cases p <;> simp_all [Part.same]

end

/-- An instruction that does not fault writes only the parts of its row. -/
theorem effect_unchanged {i : Instr} {s : State} (hf : faultOf i s = none) :
    unchangedBut (partsWritten i) s (effect i s) := by
  cases i with
  | cls => exact (s.setPx_unchanged _).trans (State.advance_unchanged _)
  | ret => exact s.pop_unchanged.trans (State.setPc_unchanged _ _)
  | call nnn =>
    rw [effect_call_of_room (room_of_no_fault hf)]
    exact (s.push_unchanged _ _).trans (State.setPc_unchanged _ _)
  | jp | jpV0 => exact s.setPc_unchanged _
  | seImm | sneImm | seReg | sneReg | skp | sknp => exact s.skipIf_unchanged _
  | ldImm | addImm | ldReg | orReg | andReg | xorReg | ldVxDt =>
    exact (s.setV_unchanged _ _).trans (State.advance_unchanged _)
  | addReg | subReg | shr | subnReg | shl => exact (s.setResultFlag_unchanged _ _ _).trans (State.advance_unchanged _)
  | ldI | addI | ldF => exact (s.setI_unchanged _).trans (State.advance_unchanged _)
  | rnd =>
    exact ((s.drawn_unchanged.trans (State.setV_unchanged _ _ _)).trans (State.advance_unchanged _)).mono
      (by simp [partsWritten])
  | drw =>
    exact ((s.setPx_unchanged _).trans (State.setV_unchanged _ _ _)).trans (State.advance_unchanged _)
  | ldKey => exact s.setWait_unchanged _
  | ldDt => exact (s.setDT_unchanged _).trans (State.advance_unchanged _)
  | ldSt => exact (s.setST_unchanged _).trans (State.advance_unchanged _)
  | ldB => exact (s.storeBytes_unchanged _ _).trans (State.advance_unchanged _)
  | storeRegs =>
    exact ((s.storeBytes_unchanged _ _).trans (State.setI_unchanged _ _)).trans (State.advance_unchanged _)
  | loadRegs => exact ((s.loadBlock_unchanged _).trans (State.setI_unchanged _ _)).trans (State.advance_unchanged _)
  | unmatched => exact (s.emit_unchanged _).trans (State.advance_unchanged _)

theorem State.getV_setV_of_ne (s : State) {x r : Nib} (b : Byte) (h : r ≠ x) : (s.setV x b).getV r = s.getV r :=
  (s.getV_setV x b r).trans (if_neg h)

theorem State.getV_setResultFlag_of_ne (s : State) {x r : Nib} (b f : Byte) (h : ¬(r = x ∨ r = vf)) :
    (s.setResultFlag x b f).getV r = s.getV r :=
  ((s.setV x b).getV_setV_of_ne f fun hv => h (.inr hv)).trans (s.getV_setV_of_ne b fun hx => h (.inl hx))

/-- A register that an instruction does not name is as before (R20, R21). -/
theorem effect_getV {i : Instr} {s : State} (hf : faultOf i s = none) {r : Nib} (h : ¬ writesReg i r) :
    (effect i s).getV r = s.getV r := by
  cases i with
  | ldImm | addImm | ldReg | orReg | andReg | xorReg | ldVxDt => exact s.getV_setV_of_ne _ h
  | rnd => exact s.drawn.getV_setV_of_ne _ h
  | addReg | subReg | shr | subnReg | shl => exact s.getV_setResultFlag_of_ne _ _ h
  | drw => exact (State.displayDraw s _ _ _).getV_setV_of_ne _ h
  | loadRegs x =>
    simp only [effect, State.advance_getV, State.setI_getV, State.getV_loadBlock]
    exact if_neg fun hr => h (Nat.lt_succ_of_le hr)
  | _ => exact effect_unchanged hf .regs (by simp [partsWritten]) r

/-- A byte outside the stores of an instruction reads as before (R65). -/
theorem effect_readMem {i : Instr} {s : State} (hf : faultOf i s = none) {a : Nat} (h : ¬ writesByte i s a) :
    (effect i s).readMem a = s.readMem a := by
  cases i with
  | ldB x =>
    have hout : a < s.I.toNat ∨ s.I.toNat + (bcdDigits (s.getV x)).length ≤ a := by
      simp only [writesByte] at h
      rw [length_bcdDigits]
      omega
    exact State.readMem_storeBytes_outside (s := s) hout
  | storeRegs x =>
    have hout : a < s.I.toNat ∨ s.I.toNat + (s.regBlock x).length ≤ a := by
      simp only [writesByte, blockSize] at h
      rw [State.length_regBlock]
      omega
    exact State.readMem_storeBytes_outside (s := s) hout
  | _ => exact effect_unchanged hf .memory (by simp [partsWritten]) a

/-- A stack entry other than the one that a call pushes is as before (R25). -/
theorem effect_entry {i : Instr} {s : State} (hf : faultOf i s = none) {k : Nat} (hk : k < 16)
    (h : ¬ writesEntry i s k) :
    (effect i s).stack[k] = s.stack[k] := by
  cases i with
  | ret => rfl
  | call nnn =>
    simp only [effect_call_of_room (room_of_no_fault hf)]
    exact Vector.getElem_set_ne (room_of_no_fault hf) hk (Ne.symm h)
  | _ => exact (effect_unchanged hf .stack (by simp [partsWritten])).2 k hk

/-- A pixel that an instruction does not address is as before (R33). -/
theorem effect_pixel {i : Instr} {s : State} (hf : faultOf i s = none) {row : Fin 32} {col : Fin 64}
    (h : ¬ writesPixel i s row col) :
    pixel (effect i s).px row col = pixel s.px row col := by
  cases i with
  | cls => exact absurd trivial h
  | drw x y n =>
    have hn : (s.spriteRows n).length ≤ 32 := by
      have := n.isLt
      rw [State.length_spriteRows]
      omega
    obtain ⟨_, hmiss, _⟩ := drawSprite_spec (s.getV x) (s.getV y) (s.spriteRows n) hn s.px
    exact hmiss row col fun hh => h ((rowsHit_spriteRows s _ _ n row col).mp hh)
  | _ => exact effect_unchanged hf .pixels (by simp [partsWritten]) row col

/-- Settles O55: an instruction that does not fault answers its effect, whose frame the lemmas above give. -/
theorem instructionsWriteOnlyTheirParts : Obligations.InstructionsWriteOnlyTheirParts := by
  intro i s t hf he
  rw [exec_of_no_fault hf] at he
  cases he
  exact ⟨effect_unchanged hf, fun r h => effect_getV hf h, fun a h => effect_readMem hf h,
    fun k hk h => effect_entry hf hk h, fun row col h => effect_pixel hf h⟩

end Sys2Proof.Machine

/-! ## No instruction reads the host's state (R28, R34, R36, R37) -/

namespace Sys2Proof.Machine

/-- The parts that no instruction reads. -/
abbrev hostParts : List Part := [.soundTimer, .dirty, .lastKey, .run, .started, .pending, .outputs]

/-- Two states that agree on every part an instruction can read. -/
abbrev HostAlike (s s' : State) : Prop := unchangedBut hostParts s s'

/-- The state with the host's parts, and the list that holds memory, of another state. -/
def State.withHostOf (s h : State) : State :=
  { s with
    mem := h.mem, ST := h.ST, dirty := h.dirty, lastKey := h.lastKey, run := h.run, started := h.started
    pending := h.pending, outputs := h.outputs }

section
variable {s s' : State} (h : HostAlike s s')
include h

theorem HostAlike.getV_eq (r : Nib) : s'.getV r = s.getV r := h .regs (by simp) r

theorem HostAlike.I_eq : s'.I = s.I := h .index (by simp)

theorem HostAlike.pc_eq : s'.pc = s.pc := h .pc (by simp)

theorem HostAlike.sp_eq : s'.sp = s.sp := (h .stack (by simp)).1

theorem HostAlike.draws_eq : s'.draws = s.draws := h .draws (by simp)

theorem HostAlike.readMem_eq (a : Nat) : s'.readMem a = s.readMem a := h .memory (by simp) a

theorem HostAlike.V_eq : s'.V = s.V :=
  Vector.ext fun k hk => by simpa [State.getV, Nat.mod_eq_of_lt hk] using h.getV_eq (BitVec.ofNat 4 k)

theorem HostAlike.key_eq : s'.key = s.key :=
  Vector.ext fun k hk => by simpa [State.keypadGet, Nat.mod_eq_of_lt hk] using h .keypad (by simp) (BitVec.ofNat 4 k)

theorem HostAlike.px_eq : s'.px = s.px := grid_ext (h .pixels (by simp))

theorem HostAlike.stack_eq : s'.stack = s.stack := Vector.ext (h .stack (by simp)).2

/-- A state that is alike differs in the host's parts alone, and in the list that holds the same memory. -/
theorem HostAlike.exists_withHostOf : ∃ u, s' = s.withHostOf u := by
  have hDT : s'.DT = s.DT := h .delayTimer (by simp)
  have hwait : s'.wait = s.wait := h .wait (by simp)
  have hstatus : s'.status = s.status := h .status (by simp)
  have hcfg : s'.cfg = s.cfg := h .config (by simp)
  refine ⟨s', ?_⟩
  rw [State.withHostOf, ← h.V_eq, ← h.I_eq, ← h.pc_eq, ← h.stack_eq, ← h.sp_eq, ← hDT, ← hwait, ← hstatus, ← h.px_eq,
    ← h.key_eq, ← hcfg, ← h.draws_eq]

/-- Two states that are alike stay alike where the same parts are written, each part that an instruction can read to the
same value. -/
theorem HostAlike.write {ps : List Part} {t t' : State} (hs : unchangedBut ps s t) (hs' : unchangedBut ps s' t')
    (hw : ∀ p ∈ ps, p ∉ hostParts → p.same t t') : HostAlike t t' := fun p hp => by
  by_cases hm : p ∈ ps
  · exact hw p hm hp
  · exact Part.same_trans (Part.same_trans (Part.same_symm (hs p hm)) (h p hp)) (hs' p hm)

/-! So does every operation of an instruction, with the same operands in both. -/

theorem HostAlike.setV (x : Nib) (b : Byte) : HostAlike (s.setV x b) (s'.setV x b) :=
  h.write (s.setV_unchanged x b) (s'.setV_unchanged x b) (by simp [Part.same, h.getV_eq])

theorem HostAlike.loadBlock (x : Nib) : HostAlike (s.loadBlock x) (s'.loadBlock x) :=
  h.write (s.loadBlock_unchanged x) (s'.loadBlock_unchanged x)
    (by simp [Part.same, State.getV_loadBlock, h.getV_eq, h.I_eq, h.readMem_eq])

theorem HostAlike.setI (w : Word) : HostAlike (s.setI w) (s'.setI w) :=
  h.write (s.setI_unchanged w) (s'.setI_unchanged w) (by simp [Part.same])

theorem HostAlike.setPc (w : Word) : HostAlike (s.setPc w) (s'.setPc w) :=
  h.write (s.setPc_unchanged w) (s'.setPc_unchanged w) (by simp [Part.same])

theorem HostAlike.advance : HostAlike s.advance s'.advance :=
  h.write s.advance_unchanged s'.advance_unchanged (by simp [Part.same, h.pc_eq])

theorem HostAlike.push (w : Word) (hr : s.sp.val < 16) (hr' : s'.sp.val < 16) :
    HostAlike (s.push w hr) (s'.push w hr') :=
  h.write (s.push_unchanged w hr) (s'.push_unchanged w hr') (by simp [Part.same, h.stack_eq, h.sp_eq])

theorem HostAlike.pop : HostAlike s.pop s'.pop :=
  h.write s.pop_unchanged s'.pop_unchanged (by simp [Part.same, h.stack_eq, h.sp_eq])

theorem HostAlike.setDT (b : Byte) : HostAlike (s.setDT b) (s'.setDT b) :=
  h.write (s.setDT_unchanged b) (s'.setDT_unchanged b) (by simp [Part.same])

theorem HostAlike.setST (b : Byte) : HostAlike (s.setST b) (s'.setST b) :=
  h.write (s.setST_unchanged b) (s'.setST_unchanged b) (by simp)

theorem HostAlike.setWait (w : Wait) : HostAlike (s.setWait w) (s'.setWait w) :=
  h.write (s.setWait_unchanged w) (s'.setWait_unchanged w) (by simp [Part.same])

theorem HostAlike.takeFault (f : Fault) : HostAlike (s.takeFault f) (s'.takeFault f) :=
  h.write (s.takeFault_unchanged f) (s'.takeFault_unchanged f) (by simp [Part.same])

theorem HostAlike.storeBytes (a : Nat) (bs : List Byte) : HostAlike (s.storeBytes a bs) (s'.storeBytes a bs) :=
  h.write (s.storeBytes_unchanged a bs) (s'.storeBytes_unchanged a bs)
    (by simp [Part.same, State.readMem_storeBytes, h.readMem_eq])

theorem HostAlike.setPx (g : Grid) : HostAlike (s.setPx g) (s'.setPx g) :=
  h.write (s.setPx_unchanged g) (s'.setPx_unchanged g) (by simp [Part.same])

theorem HostAlike.drawn : HostAlike s.drawn s'.drawn :=
  h.write s.drawn_unchanged s'.drawn_unchanged (by simp [Part.same, h.draws_eq])

theorem HostAlike.emit (o : Output) : HostAlike (s.emit o) (s'.emit o) :=
  h.write (s.emit_unchanged o) (s'.emit_unchanged o) (by simp)

end

/-- What an instruction tests for a fault is no part of the host's state. -/
theorem faultOf_withHostOf (i : Instr) (s h : State) : faultOf i (s.withHostOf h) = faultOf i s := by
  cases i <;> rfl

section
variable {s h : State} (hs : HostAlike s (s.withHostOf h))
include hs

/-- A sprite is read from memory alike. -/
theorem HostAlike.spriteRows_eq (n : Nib) : (s.withHostOf h).spriteRows n = s.spriteRows n :=
  Memory.readBytes_congr (hs .memory (by simp)) s.I.toNat n.toNat

/-- The effect of an instruction keeps two states alike: each operation does, and its operands are the same. -/
theorem effect_withHostOf {i : Instr} (hf : faultOf i s = none) :
    HostAlike (effect i s) (effect i (s.withHostOf h)) := by
  cases i with
  | cls => exact (hs.setPx _).advance
  | ret => exact hs.pop.setPc _
  | call nnn =>
    have hroom := room_of_no_fault hf
    have hroom' : (s.withHostOf h).sp.val < 16 := hroom
    rw [effect_call_of_room hroom, effect_call_of_room hroom']
    exact (hs.push _ _ _).setPc _
  | jp | jpV0 | seImm | sneImm | seReg | sneReg | skp | sknp => exact hs.setPc _
  | ldImm | addImm | ldReg | orReg | andReg | xorReg | ldVxDt => exact (hs.setV _ _).advance
  | addReg | subReg | shr | subnReg | shl => exact ((hs.setV _ _).setV _ _).advance
  | ldI | addI | ldF => exact (hs.setI _).advance
  | rnd => exact (hs.drawn.setV _ _).advance
  | drw x y n =>
    simp only [effect, hs.spriteRows_eq]
    exact ((hs.setPx _).setV _ _).advance
  | ldKey => exact hs.setWait _
  | ldDt => exact (hs.setDT _).advance
  | ldSt => exact (hs.setST _).advance
  | ldB => exact (hs.storeBytes _ _).advance
  | storeRegs => exact ((hs.storeBytes _ _).setI _).advance
  | loadRegs => exact ((hs.loadBlock _).setI _).advance
  | unmatched => exact (hs.emit _).advance

end

/-- Settles O57: a state that is alike is the same state with the host's parts replaced, so that the instruction takes the
same fault or has an effect that is alike. -/
theorem instructionsDoNotReadHostState : Obligations.InstructionsDoNotReadHostState := by
  intro i s s' t h he
  obtain ⟨h', rfl⟩ := HostAlike.exists_withHostOf h
  rcases exec_cases he with ⟨f, hf, rfl⟩ | ⟨hf, rfl⟩
  · exact ⟨_, exec_of_fault ((faultOf_withHostOf i s h').trans hf), HostAlike.takeFault h f⟩
  · exact ⟨_, exec_of_no_fault ((faultOf_withHostOf i s h').trans hf), effect_withHostOf h hf⟩

end Sys2Proof.Machine

/-! ## Every step keeps the configuration and the invariant (R39, R43, R323) -/

namespace Sys2Proof.Machine

/-- The fields that the invariant is about, the configuration among them. -/
def State.invPart (s : State) : Memory × Config × Word × Vector Word 16 × Fin 17 × Wait × Bool :=
  (s.mem, s.cfg, s.pc, s.stack, s.sp, s.wait, s.started)

theorem State.cfg_of_invPart {s t : State} (e : t.invPart = s.invPart) : t.cfg = s.cfg := congrArg (·.2.1) e

/-- The invariant depends on those fields alone. -/
theorem State.Inv.congr {s t : State} (h : s.Inv) (e : t.invPart = s.invPart) : t.Inv := by
  simp only [State.invPart, Prod.mk.injEq] at e
  obtain ⟨hmem, hcfg, hpc, hstack, hsp, hwait, hstarted⟩ := e
  exact {
    memWf := by rw [hmem, hcfg]; exact h.memWf
    memInRange := by rw [hmem]; exact h.memInRange
    pcBound := by rw [hpc]; exact h.pcBound
    stackBound := by simpa only [hstack, hsp] using h.stackBound
    waitBound := by rw [hwait, hpc]; exact h.waitBound
    notStarted := by rw [hstarted, hpc, hwait]; exact h.notStarted }

/-- Bytes stored at addresses that exist keep the invariant. -/
theorem State.Inv.storeBytes {s : State} (h : s.Inv) {a : Nat} {bs : List Byte} (hb : a + bs.length ≤ Config.memSize) :
    (s.storeBytes a bs).Inv :=
  { h with
    memWf := Memory.writeBytes_wf bs h.memWf a
    memInRange := Memory.writeBytes_inRange bs h.memInRange hb }

/-! ### Instructions -/

/-- A state in which an instruction is executed: the invariant holds, and the core has started, does not wait, and has
`pc` below the fetch limit (R111, R262). -/
structure State.Executes (s : State) : Prop where
  inv : s.Inv
  started : s.started = true
  notWaiting : s.wait.active = false
  pcBound : s.pc.toNat < 4094

section
variable {s : State} (h : s.Executes)
include h

theorem State.Executes.congr {t : State} (e : t.invPart = s.invPart) : t.Executes := by
  have hinv := h.inv.congr e
  simp only [State.invPart, Prod.mk.injEq] at e
  obtain ⟨-, -, hpc, -, -, hwait, hstarted⟩ := e
  exact ⟨hinv, hstarted.trans h.started, hwait ▸ h.notWaiting, hpc ▸ h.pcBound⟩

theorem State.Executes.storeBytes {a : Nat} {bs : List Byte} (hb : a + bs.length ≤ Config.memSize) :
    (s.storeBytes a bs).Executes :=
  { h with inv := h.inv.storeBytes hb }

/-- The pushed entry is the `pc` of the call, below the fetch limit. -/
theorem State.Executes.push (hr : s.sp.val < 16) : (s.push s.pc hr).Executes where
  inv := { h.inv with
    stackBound := fun k hk hlt => by
      simp only [State.push_stack, State.push_sp, Vector.getElem_set] at hlt ⊢
      split
      · exact h.pcBound
      · exact h.inv.stackBound k hk (by omega) }
  started := h.started
  notWaiting := h.notWaiting
  pcBound := h.pcBound

theorem State.Executes.pop : s.pop.Executes :=
  { h with
    inv := { h.inv with
      stackBound := fun k hk hlt => h.inv.stackBound k hk (Nat.lt_of_lt_of_le hlt (Nat.sub_le _ 1)) } }

theorem State.Executes.top_lt (hne : s.sp.val ≠ 0) : s.top.toNat < 4094 :=
  h.inv.stackBound _ _ (Nat.sub_one_lt hne)

/-- The last write of every instruction but FX0A: `pc`, to at most 0x10FE (R24). -/
theorem State.Executes.setPc {w : Word} (hw : w.toNat ≤ 0x10FE) : (s.setPc w).Inv :=
  { h.inv with
    pcBound := hw
    waitBound := fun ha => absurd (h.notWaiting.symm.trans ha) Bool.false_ne_true
    notStarted := fun hs => absurd (hs.symm.trans h.started) Bool.false_ne_true }

theorem State.Executes.skipIf (c : Bool) : (s.skipIf c).Inv := by
  have hpc := h.pcBound
  refine h.setPc ?_
  cases c <;> simp only [Bool.false_eq_true, if_true, if_false, BitVec.toNat_add, BitVec.toNat_ofNat] <;> omega

theorem State.Executes.advance : s.advance.Inv := h.skipIf false

theorem State.Executes.setWait (w : Wait) : (s.setWait w).Inv :=
  { h.inv with
    waitBound := fun _ => h.pcBound
    notStarted := fun hs => absurd (hs.symm.trans h.started) Bool.false_ne_true }

/-- The largest `pc` is that of BNNN, 0xFFF + 0xFF (R24). -/
theorem effect_inv {i : Instr} (hf : faultOf i s = none) : (effect i s).Inv := by
  cases i with
  | cls | ldImm | addImm | ldReg | orReg | andReg | xorReg | addReg | subReg | shr | subnReg | shl | ldI | rnd | drw
  | ldVxDt | ldDt | ldSt | addI | ldF | loadRegs | unmatched =>
    exact State.Executes.advance (h.congr (by simp [State.invPart]))
  | ret =>
    refine h.pop.setPc ?_
    have htop := h.top_lt (nonempty_of_no_fault hf)
    simp only [Config.retAdvance, BitVec.toNat_add, BitVec.toNat_ofNat]
    omega
  | jp nnn =>
    refine h.setPc ?_
    have := nnn.isLt
    rw [zext12_toNat]
    omega
  | call nnn =>
    rw [effect_call_of_room (room_of_no_fault hf)]
    refine (h.push _).setPc ?_
    have := nnn.isLt
    rw [zext12_toNat]
    omega
  | jpV0 nnn =>
    refine h.setPc ?_
    have := nnn.isLt
    have := (s.getV 0#4).isLt
    rw [jumpV0Target_toNat]
    omega
  | seImm | sneImm | seReg | sneReg | skp | sknp => exact h.skipIf _
  | ldKey => exact h.setWait _
  | ldB x => exact (h.storeBytes (ldB_inRange_of_no_fault hf)).advance
  | storeRegs x =>
    have hb : s.I.toNat + (s.regBlock x).length ≤ Config.memSize := by
      rw [State.length_regBlock]
      exact storeRegs_inRange_of_no_fault hf
    exact State.Executes.advance ((h.storeBytes hb).congr (by simp [State.invPart]))

theorem exec_inv {i : Instr} {t : State} (he : exec i s = .next t) : t.Inv := by
  rcases exec_cases he with ⟨f, _, rfl⟩ | ⟨hf, rfl⟩
  · exact h.inv.congr rfl
  · exact effect_inv h hf

end

theorem exec_cfg {i : Instr} {s t : State} (he : exec i s = .next t) : t.cfg = s.cfg := by
  rcases exec_cases he with ⟨f, _, rfl⟩ | ⟨hf, rfl⟩
  · rfl
  · exact effect_unchanged hf .config (by cases i <;> simp [partsWritten])

/-! ### Events: what each can do to those fields -/

section
variable (s : State)

theorem State.tick_invPart : s.tick.invPart = s.invPart := by unfold State.tick; split <;> rfl

theorem State.quit_invPart : s.quit.invPart = s.invPart := by unfold State.quit; split <;> rfl

theorem State.consume_invPart : s.consume.invPart = s.invPart := by unfold State.consume; split <;> rfl

theorem State.keyReleased_invPart (k : Nib) : (s.keyReleased k).invPart = s.invPart := by
  unfold State.keyReleased
  split
  · rfl
  · split <;> rfl

/-- A key press ends a wait, or leaves those fields. -/
theorem State.keyPressed_cases (k : Nib) :
    (s.keyPressed k).invPart = s.invPart ∨
    (s.wait.active = true ∧ s.keyPressed k = (s.endWait k).setLastKey (some k)) := by
  unfold State.keyPressed
  split
  · exact .inl rfl
  · split
    · exact .inl rfl
    · next hw =>
      split
      · exact .inr ⟨by simpa using hw, rfl⟩
      · exact .inl rfl

/-- A load stores a program that fits, or leaves those fields (R258). -/
theorem State.load_cases (bytes : List Byte) :
    (s.load bytes).invPart = s.invPart ∨
    (s.started = false ∧ bytes.length ≤ Config.maxRom ∧ s.load bytes = s.storeBytes Config.programStart bytes) := by
  unfold State.load
  split
  · exact .inl rfl
  · next hs =>
    split
    · exact .inl rfl
    · next hlen => exact .inr ⟨by simp_all, Nat.not_lt.mp hlen, rfl⟩

/-- `Exec` does nothing, or executes the opcode in a core that does not wait and has `pc` below the fetch limit. -/
theorem execEvent_cases (op : Word) :
    execEvent op s = .next s ∨
    (s.wait.active = false ∧ s.pc.toNat < 4094 ∧ execEvent op s = exec (decode op) s.begin) := by
  unfold execEvent
  split
  · next hc =>
    simp only [Bool.and_eq_true, Bool.not_eq_true', decide_eq_true_eq] at hc
    exact .inr ⟨hc.1.2, hc.2, rfl⟩
  · exact .inl rfl

end

/-! ### The configuration -/

theorem State.endWait_cfg (s : State) (k : Nib) : (s.endWait k).cfg = s.cfg := by unfold State.endWait; split <;> rfl

theorem stepEvent_cfg {s t : State} (h : stepEvent s = .next t) : t.cfg = s.cfg := by
  rcases stepEvent_cases s with ⟨_, he⟩ | ⟨_, _, he⟩ | ⟨_, _, he⟩ <;> rw [he] at h
  · cases h; rfl
  · cases h; rfl
  · exact (exec_cfg h).trans s.begin_cfg

theorem execEvent_cfg {op : Word} {s t : State} (h : execEvent op s = .next t) : t.cfg = s.cfg := by
  rcases execEvent_cases s op with he | ⟨_, _, he⟩ <;> rw [he] at h
  · cases h; rfl
  · exact (exec_cfg h).trans s.begin_cfg

theorem handle_cfg {e : Event} {s t : State} (h : handle e s = .next t) : t.cfg = s.cfg := by
  cases e with
  | step => exact stepEvent_cfg h
  | exec op => exact execEvent_cfg h
  | tick => cases h; exact State.cfg_of_invPart s.tick_invPart
  | quit => cases h; exact State.cfg_of_invPart s.quit_invPart
  | consume => cases h; exact State.cfg_of_invPart s.consume_invPart
  | run | reset => cases h; rfl
  | key k ks =>
    cases ks with
    | released => cases h; exact State.cfg_of_invPart (s.keyReleased_invPart k)
    | pressed =>
      cases h
      rcases s.keyPressed_cases k with hp | ⟨_, hp⟩
      · exact State.cfg_of_invPart hp
      · rw [hp]; exact s.endWait_cfg k
  | load bytes =>
    cases h
    rcases s.load_cases bytes with hp | ⟨_, _, hp⟩
    · exact State.cfg_of_invPart hp
    · rw [hp]; rfl

/-- Settles O58: a step is a `Step`, or the event at the head of the pending ones. -/
theorem stepKeepsTheConfiguration : Obligations.StepKeepsTheConfiguration := by
  intro s t h
  cases hp : s.pending with
  | nil => exact stepEvent_cfg ((step_of_no_pending hp).symm.trans h)
  | cons e es => exact (handle_cfg ((step_of_pending hp).symm.trans h)).trans (s.setPending_cfg es)

/-! ### The invariant -/

theorem State.Inv.begin {s : State} (h : s.Inv) (hw : s.wait.active = false) (hpc : s.pc.toNat < 4094) :
    s.begin.Executes :=
  ⟨{ h with notStarted := nofun }, rfl, hw, hpc⟩

/-- A waiting core has started, so that the end of the wait is the end of an instruction (R226). -/
theorem State.Inv.endWait {s : State} (h : s.Inv) (hw : s.wait.active = true) (k : Nib) : (s.endWait k).Inv := by
  have hstarted : s.started = true := by
    by_contra hs
    have := (h.notStarted (Bool.eq_false_iff.mpr hs)).2
    simp [hw] at this
  rw [State.endWait, if_pos hw]
  refine State.Executes.advance ⟨?_, hstarted, rfl, h.waitBound hw⟩
  exact { h with waitBound := nofun, notStarted := fun hs => ⟨(h.notStarted hs).1, rfl⟩ }

theorem stepEvent_inv {s t : State} (hi : s.Inv) (h : stepEvent s = .next t) : t.Inv := by
  rcases stepEvent_cases s with ⟨_, he⟩ | ⟨_, _, he⟩ | ⟨⟨_, _, hw⟩, hpc, he⟩ <;> rw [he] at h
  · cases h; exact hi
  · cases h; exact hi.congr rfl
  · exact exec_inv (hi.begin hw hpc) h

theorem execEvent_inv {op : Word} {s t : State} (hi : s.Inv) (h : execEvent op s = .next t) : t.Inv := by
  rcases execEvent_cases s op with he | ⟨hw, hpc, he⟩ <;> rw [he] at h
  · cases h; exact hi
  · exact exec_inv (hi.begin hw hpc) h

theorem handle_inv {e : Event} {s t : State} (hi : s.Inv) (h : handle e s = .next t) : t.Inv := by
  cases e with
  | step => exact stepEvent_inv hi h
  | exec op => exact execEvent_inv hi h
  | tick => cases h; exact hi.congr s.tick_invPart
  | quit => cases h; exact hi.congr s.quit_invPart
  | consume => cases h; exact hi.congr s.consume_invPart
  | run => cases h; exact hi.congr rfl
  | reset => cases h; exact (State.create_inv s.cfg).congr rfl
  | key k ks =>
    cases ks with
    | released => cases h; exact hi.congr (s.keyReleased_invPart k)
    | pressed =>
      cases h
      rcases s.keyPressed_cases k with hp | ⟨hw, hp⟩
      · exact hi.congr hp
      · rw [hp]; exact (hi.endWait hw k).congr rfl
  | load bytes =>
    cases h
    rcases s.load_cases bytes with hp | ⟨_, hlen, hp⟩
    · exact hi.congr hp
    · rw [hp]; exact hi.storeBytes (Nat.add_le_add_left hlen Config.programStart)

/-- Settles O60: the pending events are no part of the invariant, and every event keeps it. -/
theorem stepKeepsTheInvariant : Obligations.StepKeepsTheInvariant := by
  intro s t hi h
  cases hp : s.pending with
  | nil => exact stepEvent_inv hi ((step_of_no_pending hp).symm.trans h)
  | cons e es => exact handle_inv (hi.congr rfl : (s.setPending es).Inv) ((step_of_pending hp).symm.trans h)

end Sys2Proof.Machine

/-! PROOFS of the family 20_memory. What a step fetches and executes, and what FX55 leaves for the fetch to read. -/

namespace Sys2Proof.Machine

/-! ## The fetch (R62, R111, R112) -/

/-- With no event pending, an enabled core below the fetch limit executes the fetched word. -/
theorem step_of_enabled {s : State} (hp : s.pending = []) (he : s.stepEnabled) (hpc : s.pc.toNat < 4094) :
    step s = exec (decode s.fetchWord) s.begin := by
  rw [step_of_no_pending hp]
  rcases stepEvent_cases s with ⟨hne, -⟩ | ⟨-, hge, -⟩ | ⟨-, -, hstep⟩
  · exact absurd he hne
  · omega
  · exact hstep

/-- Settles O6: the fetched word is the one with that value. -/
theorem fetchIsBigEndian : Obligations.FetchIsBigEndian := by
  intro s op hp he hpc hop
  have hword : s.fetchWord = op := BitVec.eq_of_toNat_eq ((wordOfBytes_toNat _ _).trans hop.symm)
  rw [step_of_enabled hp he hpc, hword, State.begin]

/-! ## FX55 before a fetch (R71, R184) -/

/-- Where FX55 does not fault, the byte `r` past the old `I` reads as `V[r]`, for each register of the block. -/
theorem effect_storeRegs_readMem (s : State) {x r : Nib} (h : r.toNat ≤ x.toNat) :
    (effect (.storeRegs x) s).readMem (s.I.toNat + r.toNat) = s.getV r := by
  have hin : s.I.toNat ≤ s.I.toNat + r.toNat ∧ s.I.toNat + r.toNat < s.I.toNat + (s.regBlock x).length := by
    rw [State.length_regBlock]
    omega
  simp only [effect, State.advance_readMem, State.setI_readMem, State.readMem_storeBytes, dif_pos hin,
    State.getElem_regBlock, Nat.add_sub_cancel_left, BitVec.ofNat_toNat, BitVec.setWidth_eq]

theorem effect_storeRegs_pc (s : State) (x : Nib) : (effect (.storeRegs x) s).pc = s.pc + 2#16 := rfl

/-- FX55 over the two bytes of the instruction after it leaves `V[0]` and `V[1]` as the word to be fetched. -/
theorem effect_storeRegs_fetchWord {s : State} {x : Nib} (hx : 1 ≤ x.toNat) (hI : s.I = s.pc + 2#16) :
    (effect (.storeRegs x) s).fetchWord = wordOfBytes (s.getV 0#4) (s.getV 1#4) := by
  have hhi := effect_storeRegs_readMem s (r := 0#4) (Nat.zero_le x.toNat)
  have hlo := effect_storeRegs_readMem s (r := 1#4) hx
  rw [State.fetchWord, effect_storeRegs_pc, ← hI, ← hhi, ← hlo]
  rfl

/-- Settles O31: FX55 completes with its effect, which leaves the core enabled and the stored word to be fetched. -/
theorem storeIsSeenByNextFetch : Obligations.StoreIsSeenByNextFetch := by
  intro x s hp he hx hpc hI hin
  have hnext : s.I = s.pc + 2#16 := by bv_omega
  have hlt : (effect (.storeRegs x) s).pc.toNat < 4094 := by
    rw [effect_storeRegs_pc, ← hnext]
    omega
  refine ⟨effect (.storeRegs x) s, exec_storeRegs_of_inRange hin, ?_⟩
  rw [step_of_enabled (s := effect (.storeRegs x) s) hp he hlt, effect_storeRegs_fetchWord hx hnext, State.begin]

end Sys2Proof.Machine

/-! PROOFS of the family 30_encoding. Every matched instruction is decoded from exactly the opcodes that its row selects
(`decode_of_selected`), every opcode is that of the instruction it decodes to (`encode_decode`), and the opcodes left over
are the unmatched space (`decode_eq_unmatched_iff`). -/

namespace Sys2Proof

/-! ## The fields of an opcode make up the opcode (R91, R92) -/

theorem packNNN_fields {op : Word} {a : Nib} (ha : (fieldA op).toNat = a.toNat) : packNNN a (fieldNNN op) = op := by
  apply BitVec.eq_of_toNat_eq
  have := op.isLt
  rw [packNNN_toNat, ← ha, fieldA_toNat, fieldNNN_toNat]
  omega

theorem packXNN_fields {op : Word} {a : Nib} {nn : Byte} (ha : (fieldA op).toNat = a.toNat)
    (hnn : (fieldNN op).toNat = nn.toNat) : packXNN a (fieldX op) nn = op := by
  apply BitVec.eq_of_toNat_eq
  have := op.isLt
  rw [packXNN_toNat, ← ha, ← hnn, fieldA_toNat, fieldX_toNat, fieldNN_toNat]
  omega

theorem packXYN_fields {op : Word} {a n : Nib} (ha : (fieldA op).toNat = a.toNat) (hn : (fieldN op).toNat = n.toNat) :
    packXYN a (fieldX op) (fieldY op) n = op := by
  apply BitVec.eq_of_toNat_eq
  have := op.isLt
  rw [packXYN_toNat, ← ha, ← hn, fieldA_toNat, fieldX_toNat, fieldY_toNat, fieldN_toNat]
  omega

/-! ## The rows of R94 as instructions -/

/-- The instruction stands in a row of R94 other than the fall-through. -/
def Instr.matched : Instr → Bool
  | .unmatched _ => false
  | _ => true

/-- The instruction of the same row with the operands that `op` holds (R91, R92). -/
def Instr.withFieldsOf (i : Instr) (op : Word) : Instr :=
  match i with
  | .cls => .cls
  | .ret => .ret
  | .jp _ => .jp (fieldNNN op)
  | .call _ => .call (fieldNNN op)
  | .seImm _ _ => .seImm (fieldX op) (fieldNN op)
  | .sneImm _ _ => .sneImm (fieldX op) (fieldNN op)
  | .seReg _ _ => .seReg (fieldX op) (fieldY op)
  | .ldImm _ _ => .ldImm (fieldX op) (fieldNN op)
  | .addImm _ _ => .addImm (fieldX op) (fieldNN op)
  | .ldReg _ _ => .ldReg (fieldX op) (fieldY op)
  | .orReg _ _ => .orReg (fieldX op) (fieldY op)
  | .andReg _ _ => .andReg (fieldX op) (fieldY op)
  | .xorReg _ _ => .xorReg (fieldX op) (fieldY op)
  | .addReg _ _ => .addReg (fieldX op) (fieldY op)
  | .subReg _ _ => .subReg (fieldX op) (fieldY op)
  | .shr _ _ => .shr (fieldX op) (fieldY op)
  | .subnReg _ _ => .subnReg (fieldX op) (fieldY op)
  | .shl _ _ => .shl (fieldX op) (fieldY op)
  | .sneReg _ _ => .sneReg (fieldX op) (fieldY op)
  | .ldI _ => .ldI (fieldNNN op)
  | .jpV0 _ => .jpV0 (fieldNNN op)
  | .rnd _ _ => .rnd (fieldX op) (fieldNN op)
  | .drw _ _ _ => .drw (fieldX op) (fieldY op) (fieldN op)
  | .skp _ => .skp (fieldX op)
  | .sknp _ => .sknp (fieldX op)
  | .ldVxDt _ => .ldVxDt (fieldX op)
  | .ldKey _ => .ldKey (fieldX op)
  | .ldDt _ => .ldDt (fieldX op)
  | .ldSt _ => .ldSt (fieldX op)
  | .addI _ => .addI (fieldX op)
  | .ldF _ => .ldF (fieldX op)
  | .ldB _ => .ldB (fieldX op)
  | .storeRegs _ => .storeRegs (fieldX op)
  | .loadRegs _ => .loadRegs (fieldX op)
  | .unmatched _ => .unmatched op

@[simp] theorem Instr.matched_withFieldsOf (i : Instr) (op : Word) : (i.withFieldsOf op).matched = i.matched := by
  cases i <;> rfl

/-- The row of the instruction in the table of R94. -/
def rowOf (i : Instr) : Word × Word := (rowMask i, rowMatch i)

@[simp] theorem rowOf_withFieldsOf (i : Instr) (op : Word) : rowOf (i.withFieldsOf op) = rowOf i := by
  cases i <;> rfl

theorem withFieldsOf_encode (i : Instr) : i.withFieldsOf (encode i) = i := by
  cases i <;> simp [Instr.withFieldsOf, encode]

theorem encode_and_rowMask (i : Instr) : encode i &&& rowMask i = rowMatch i := by
  cases i with
  | cls | ret => rfl
  | jp | call | ldI | jpV0 => exact packNNN_mask _ _
  | seImm | sneImm | ldImm | addImm | rnd => exact packXNN_maskF000 _ _ _
  | drw => exact packXYN_maskF000 _ _ _ _
  | seReg | ldReg | orReg | andReg | xorReg | addReg | subReg | shr | subnReg | shl | sneReg =>
    exact packXYN_maskF00F _ _ _ _
  | skp | sknp | ldVxDt | ldKey | ldDt | ldSt | addI | ldF | ldB | storeRegs | loadRegs => exact packXNN_maskF0FF _ _ _
  | unmatched => exact BitVec.and_zero

theorem rowOf_mem_opcodeRows {i : Instr} (h : i.matched = true) : rowOf i ∈ opcodeRows := by
  cases i with
  | unmatched => cases h
  | _ => simp [rowOf, rowMask, rowMatch, opcodeRows]

/-- Each row is the row of the instruction that its own match decodes to. -/
theorem rowOf_decode_match {row : Word × Word} (h : row ∈ opcodeRows) :
    (decode row.2).matched = true ∧ rowOf (decode row.2) = row := by
  have hall : opcodeRows.all (fun row => (decode row.2).matched && rowOf (decode row.2) == row) = true := by decide
  simpa using List.all_eq_true.mp hall row h

/-! ## An opcode that a row selects -/

/-- An opcode that the row of `i` selects decodes to `i` with the operands of the opcode (R94): the fixed bits fix the
fields on which the decoder dispatches. -/
theorem decode_of_selected {i : Instr} (hm : i.matched = true) {op : Word} (h : op &&& rowMask i = rowMatch i) :
    decode op = i.withFieldsOf op := by
  cases i with
  | unmatched => cases hm
  | cls | ret =>
    have hop : op = _ := BitVec.and_allOnes.symm.trans h
    subst hop; rfl
  | jp | call | seImm | sneImm | ldImm | addImm | ldI | jpV0 | rnd | drw =>
    simp only [rowMask, rowMatch] at h
    rw [decode, fieldA_of_selected h rfl]; rfl
  | seReg | sneReg =>
    simp only [rowMask, rowMatch] at h
    rw [decode, fieldA_of_selected h rfl, fieldN_of_selected h rfl]; rfl
  | ldReg | orReg | andReg | xorReg | addReg | subReg | shr | subnReg | shl =>
    simp only [rowMask, rowMatch] at h
    rw [decode, decode8, fieldA_of_selected h rfl, fieldN_of_selected h rfl]; rfl
  | skp | sknp =>
    simp only [rowMask, rowMatch] at h
    rw [decode, decodeE, fieldA_of_selected h rfl, fieldNN_of_selected h rfl]; rfl
  | ldVxDt | ldKey | ldDt | ldSt | addI | ldF | ldB | storeRegs | loadRegs =>
    simp only [rowMask, rowMatch] at h
    rw [decode, decodeF, fieldA_of_selected h rfl, fieldNN_of_selected h rfl]; rfl

/-! ## The opcode of the decoded instruction

In the decoder's functions, `split` numbers the arms in their order, the fall-through last. -/

theorem encode_decode0 (op : Word) : encode (decode0 op) = op := by
  unfold decode0
  split
  · next h => exact h.symm
  · split
    · next h => exact h.symm
    · rfl

theorem encode_decode8 {op : Word} (ha : (fieldA op).toNat = 0x8) : encode (decode8 op) = op := by
  unfold decode8
  split
  case h_10 => rfl
  all_goals next hn => exact packXYN_fields ha hn

theorem encode_decodeE {op : Word} (ha : (fieldA op).toNat = 0xE) : encode (decodeE op) = op := by
  unfold decodeE
  split
  case h_3 => rfl
  all_goals next hnn => exact packXNN_fields ha hnn

theorem encode_decodeF {op : Word} (ha : (fieldA op).toNat = 0xF) : encode (decodeF op) = op := by
  unfold decodeF
  split
  case h_10 => rfl
  all_goals next hnn => exact packXNN_fields ha hnn

theorem encode_decode (op : Word) : encode (decode op) = op := by
  unfold decode
  split
  case h_1 => exact encode_decode0 op
  case h_2 ha | h_3 ha | h_11 ha | h_12 ha => exact packNNN_fields ha
  case h_4 ha | h_5 ha | h_7 ha | h_8 ha | h_13 ha => exact packXNN_fields ha rfl
  case h_6 ha | h_10 ha =>
    split
    · next hn => exact packXYN_fields ha (congrArg BitVec.toNat hn)
    · rfl
  case h_9 ha => exact encode_decode8 ha
  case h_14 ha => exact packXYN_fields ha rfl
  case h_15 ha => exact encode_decodeE ha
  case h_16 =>
    have := (fieldA op).isLt
    simp only [imp_false] at *
    exact encode_decodeF (by omega)

/-! ## The unmatched space -/

theorem fieldA_toNat_eq_div (op : Word) : (fieldA op).toNat = op.toNat / 0x1000 := by
  have := op.isLt
  rw [fieldA_toNat]
  omega

theorem decode0_eq_unmatched_iff {op : Word} (ha : (fieldA op).toNat = 0) :
    decode0 op = .unmatched op ↔ op.toNat % 0x1000 ≠ 0x0E0 ∧ op.toNat % 0x1000 ≠ 0x0EE := by
  have hval : op.toNat % 0x1000 = op.toNat := by
    rw [fieldA_toNat_eq_div] at ha
    omega
  rw [hval, decode0]
  split
  · next h => simp [h]
  · next h =>
    split
    · next h' => simp [h']
    · next h' => simpa [BitVec.toNat_eq] using And.intro h h'

theorem decode8_eq_unmatched_iff (op : Word) :
    decode8 op = .unmatched op ↔ op.toNat % 0x10 ∈ [0x8, 0x9, 0xA, 0xB, 0xC, 0xD, 0xF] := by
  unfold decode8
  rw [← fieldN_toNat]
  split
  case h_10 =>
    have := (fieldN op).isLt
    simp only [imp_false, List.mem_cons, List.not_mem_nil, or_false, true_iff] at *
    omega
  all_goals next hn => simp [hn]

theorem decodeE_eq_unmatched_iff (op : Word) :
    decodeE op = .unmatched op ↔ op.toNat % 0x100 ∉ [0x9E, 0xA1] := by
  unfold decodeE
  rw [← fieldNN_toNat]
  split
  case h_3 => simp_all
  all_goals next hn => simp [hn]

theorem decodeF_eq_unmatched_iff (op : Word) :
    decodeF op = .unmatched op ↔
      op.toNat % 0x100 ∉ [0x07, 0x0A, 0x15, 0x18, 0x1E, 0x29, 0x33, 0x55, 0x65] := by
  unfold decodeF
  rw [← fieldNN_toNat]
  split
  case h_10 => simp_all
  all_goals next hn => simp [hn]

/-- Every part of R98 is what one major opcode leaves over; the other major opcodes leave nothing over. -/
theorem decode_eq_unmatched_iff (op : Word) : decode op = .unmatched op ↔ unmatchedSpace op = true := by
  unfold decode
  split
  case h_1 ha =>
    rw [decode0_eq_unmatched_iff ha]
    simp [unmatchedSpace, ← fieldA_toNat_eq_div, ha]
  case h_6 ha | h_10 ha =>
    simp [unmatchedSpace, ← fieldA_toNat_eq_div, ha, BitVec.toNat_eq, fieldN_toNat]
  case h_9 ha =>
    rw [decode8_eq_unmatched_iff]
    simp [unmatchedSpace, ← fieldA_toNat_eq_div, ha]
  case h_15 ha =>
    rw [decodeE_eq_unmatched_iff]
    simp [unmatchedSpace, ← fieldA_toNat_eq_div, ha]
  case h_16 =>
    have := (fieldA op).isLt
    simp only [imp_false] at *
    have ha : (fieldA op).toNat = 0xF := by omega
    rw [decodeF_eq_unmatched_iff]
    simp [unmatchedSpace, ← fieldA_toNat_eq_div, ha]
  all_goals next ha => simp [unmatchedSpace, ← fieldA_toNat_eq_div, ha]

/-! ## The round trips and the rows -/

theorem eq_of_decode_eq_unmatched {op w : Word} (h : decode op = .unmatched w) : w = op := by
  rw [← encode_decode op, h, encode]

theorem decode_wellFormed (op : Word) : (decode op).WellFormed := by
  cases h : decode op with
  | unmatched w =>
    obtain rfl := eq_of_decode_eq_unmatched h
    exact (decode_eq_unmatched_iff w).mp h
  | _ => rfl

theorem decode_encode {i : Instr} (h : i.WellFormed) : decode (encode i) = i := by
  cases i with
  | unmatched op => exact (decode_eq_unmatched_iff op).mpr h
  | _ => exact (decode_of_selected rfl (encode_and_rowMask _)).trans (withFieldsOf_encode _)

theorem decodeBytes_encodeBytes (i : Instr) (rest : List Byte) :
    decodeBytes (encodeBytes i ++ rest) = .ok (decode (encode i), rest) := by
  simp [encodeBytes, decodeBytes, wordOfBytes_extract]

/-- A row that selects an opcode is the row of a matched instruction, whose row the decoded instruction then has. -/
theorem row_eq_of_selects {row : Word × Word} (hr : row ∈ opcodeRows) {op : Word} (h : op &&& row.1 = row.2) :
    (decode op).matched = true ∧ row = rowOf (decode op) := by
  obtain ⟨hm, hrow⟩ := rowOf_decode_match hr
  rw [← hrow] at h
  rw [decode_of_selected hm h]
  simp [hm, hrow]

theorem decode_selected_of_matched {op : Word} (hm : (decode op).matched = true) :
    rowOf (decode op) ∈ opcodeRows ∧ op &&& rowMask (decode op) = rowMatch (decode op) := by
  have h := encode_and_rowMask (decode op)
  rw [encode_decode] at h
  exact ⟨rowOf_mem_opcodeRows hm, h⟩

theorem decode_eq_unmatched_iff_not_matched (op : Word) : decode op = .unmatched op ↔ (decode op).matched = false := by
  cases h : decode op with
  | unmatched w => simp [Instr.matched, eq_of_decode_eq_unmatched h]
  | _ => simp [Instr.matched]

theorem no_row_selects_iff (op : Word) :
    (∀ row ∈ opcodeRows, op &&& row.1 ≠ row.2) ↔ decode op = .unmatched op := by
  rw [decode_eq_unmatched_iff_not_matched]
  constructor
  · intro hno
    by_contra hm
    obtain ⟨hmem, hsel⟩ := decode_selected_of_matched (Bool.eq_true_of_not_eq_false hm)
    exact hno _ hmem hsel
  · intro hm row hr h
    exact absurd (row_eq_of_selects hr h).1 (Bool.eq_false_iff.mp hm)

/-- Settles O1, by running the decoder on the nine words. -/
theorem sampleWordsDecode : Obligations.SampleWordsDecode := by
  unfold Obligations.SampleWordsDecode
  decide

/-- Settles O2: the opcode of a matched instruction is selected by its own row and holds its operands, and that of a
well-formed unmatched one is in the unmatched space. -/
theorem decodeEncodeRoundTrip : Obligations.DecodeEncodeRoundTrip := by
  intro i h
  exact ⟨decode_encode h, fun rest => by rw [decodeBytes_encodeBytes, decode_encode h]⟩

/-- Settles O3, arm by arm of the decoder in `encode_decode` and `decode_eq_unmatched_iff`. -/
theorem encodeDecodeRoundTrip : Obligations.EncodeDecodeRoundTrip := fun op => ⟨decode_wellFormed op, encode_decode op⟩

/-- Settles O4: the selecting row is the decoded instruction's, and a matched instruction's own row selects its opcode. -/
theorem rowsSelectByMaskAndMatch : Obligations.RowsSelectByMaskAndMatch := fun op =>
  ⟨fun _ hr h => (row_eq_of_selects hr h).2, no_row_selects_iff op⟩

end Sys2Proof

namespace Sys2Proof.Machine

/-- Settles O17: an unmatched instruction cannot fault, so that it completes with its effect. -/
theorem unmatchedIsNoOperation : Obligations.UnmatchedIsNoOperation := by
  intro op s hno
  refine ⟨(no_row_selects_iff op).mp hno, effect (.unmatched op) s, exec_of_no_fault rfl, rfl, rfl, ?_⟩
  exact (effect_unchanged (i := .unmatched op) rfl).mono (by simp [partsWritten])

end Sys2Proof.Machine

/-! PROOFS of the family 40_cycle. Every instruction, event and step answers a next state; what a step does in each of the
cases of `stepEvent_cases`; where every instruction leaves `pc`. -/

namespace Sys2Proof.Machine

/-! ## Totality (R113, R285) -/

/-- An instruction answers the entry of its fault, or its effect. -/
theorem exec_answers_next (i : Instr) (s : State) : ∃ t, exec i s = .next t := by
  cases hf : faultOf i s with
  | some f => exact ⟨s.takeFault f, exec_of_fault hf⟩
  | none => exact ⟨effect i s, exec_of_no_fault hf⟩

theorem stepEvent_answers_next (s : State) : ∃ t, stepEvent s = .next t := by
  rcases stepEvent_cases s with ⟨-, he⟩ | ⟨-, -, he⟩ | ⟨-, -, he⟩
  · exact ⟨s, he⟩
  · exact ⟨s.setStatus .finished, he⟩
  · exact he ▸ exec_answers_next _ _

theorem execEvent_answers_next (op : Word) (s : State) : ∃ t, execEvent op s = .next t := by
  rcases execEvent_cases s op with he | ⟨-, -, he⟩
  · exact ⟨s, he⟩
  · exact he ▸ exec_answers_next _ _

/-- Only `Step` and `Exec` execute an instruction; every other event is a function of the state. -/
theorem handle_answers_next (e : Event) (s : State) : ∃ t, handle e s = .next t := by
  cases e with
  | step => exact stepEvent_answers_next s
  | exec op => exact execEvent_answers_next op s
  | key k ks => cases ks <;> exact ⟨_, rfl⟩
  | tick | run | reset | quit | load | consume => exact ⟨_, rfl⟩

/-- Settles O10: a step is a `Step`, or the event at the head of the pending ones, and both answer a next state. -/
theorem stepAlwaysAnswersNext : Obligations.StepAlwaysAnswersNext := by
  refine ⟨exec_answers_next, fun s => ?_⟩
  cases hp : s.pending with
  | nil => exact step_of_no_pending hp ▸ stepEvent_answers_next s
  | cons e es => exact step_of_pending hp ▸ handle_answers_next e (s.setPending es)

/-! ## Where an instruction leaves `pc` (R114) -/

section
variable {s : State} (hpc : s.pc.toNat < 4094)
include hpc

/-- Below the fetch limit the sum of a skip does not wrap. -/
theorem State.skipIf_pc_toNat {c : Bool} {p : Prop} [Decidable p] (hc : c = true ↔ p) :
    (s.skipIf c).pc.toNat = if p then s.pc.toNat + 4 else s.pc.toNat + 2 := by
  simp only [State.skipIf_pc, hc]
  split <;> bv_omega

theorem State.advance_pc_toNat : s.advance.pc.toNat = s.pc.toNat + 2 := by
  rw [State.advance_pc]
  bv_omega

/-- The only other sum that could wrap is that of 00EE, and the popped entry is below the fetch limit (R43). -/
theorem effect_pc_toNat {i : Instr} (hi : s.Inv) (hf : faultOf i s = none) :
    (effect i s).pc.toNat = pcAfter i s := by
  cases i with
  | jp nnn => exact zext12_toNat nnn
  | call nnn =>
    rw [effect_call_of_room (room_of_no_fault hf)]
    exact zext12_toNat nnn
  | jpV0 nnn => exact jumpV0Target_toNat nnn (s.getV 0#4)
  | ret =>
    have htop : s.top.toNat < 4094 := hi.stackBound _ _ (Nat.sub_one_lt (nonempty_of_no_fault hf))
    simp only [effect, pcAfter, State.setPc_pc, Config.retAdvance]
    bv_omega
  | ldKey => rfl
  | seImm | seReg | skp | sknp => exact State.skipIf_pc_toNat hpc beq_iff_eq
  | sneImm | sneReg => exact State.skipIf_pc_toNat hpc bne_iff_ne
  | cls | ldImm | addImm | ldReg | orReg | andReg | xorReg | addReg | subReg | shr | subnReg | shl | ldI | rnd | drw
  | ldVxDt | ldDt | ldSt | addI | ldF | ldB | storeRegs | loadRegs | unmatched => exact State.advance_pc_toNat hpc

end

/-- Settles O56: fault entry leaves `pc`, and the effect of an instruction that does not fault moves it by the table. -/
theorem pcMovesByTheTable : Obligations.PcMovesByTheTable := by
  intro i s t hi hpc he
  rcases exec_cases he with ⟨f, hf, rfl⟩ | ⟨hf, rfl⟩
  · rw [if_neg (by simp [hf]), State.takeFault_pc]
  · rw [if_pos hf, effect_pc_toNat hpc hi hf]

/-! ## The step with no event pending (R111, R112, R116 to R118) -/

theorem State.decodeBytes_fetchBytes (s : State) : decodeBytes s.fetchBytes = .ok (decode s.fetchWord, []) := rfl

/-- Settles O5: the two bytes at `pc` decode to the instruction of the fetched word. -/
theorem stepRunsTheDecodedInstruction : Obligations.StepRunsTheDecodedInstruction := by
  intro s i hp he hpc hdec
  have hi : decode s.fetchWord = i :=
    congrArg Prod.fst (Except.ok.inj (s.decodeBytes_fetchBytes.symm.trans hdec))
  rw [step_of_enabled hp he hpc, hi, State.begin]

theorem State.setStatus_unchanged (s : State) (x : Status) : unchangedBut [.status] s (s.setStatus x) := by
  intro p hp
  cases p <;> simp_all [Part.same]

theorem step_of_fetchLimit {s : State} (hp : s.pending = []) (he : s.stepEnabled) (hpc : 4094 ≤ s.pc.toNat) :
    step s = .next (s.setStatus .finished) := by
  rw [step_of_no_pending hp]
  rcases stepEvent_cases s with ⟨hne, -⟩ | ⟨-, -, hstep⟩ | ⟨-, hlt, -⟩
  · exact absurd he hne
  · exact hstep
  · omega

/-- Settles O7: the step only sets the status. -/
theorem stepFinishesAtFetchLimit : Obligations.StepFinishesAtFetchLimit := fun s hp he hpc =>
  ⟨s.setStatus .finished, step_of_fetchLimit hp he hpc, rfl, s.setStatus_unchanged .finished⟩

theorem step_of_not_enabled {s : State} (hp : s.pending = []) (hne : ¬ s.stepEnabled) : step s = .next s := by
  rw [step_of_no_pending hp]
  rcases stepEvent_cases s with ⟨-, hstep⟩ | ⟨he, -, -⟩ | ⟨he, -, -⟩
  · exact hstep
  · exact absurd he hne
  · exact absurd he hne

/-- Settles O8: each of the three disjuncts denies one conjunct of `State.stepEnabled`. -/
theorem stepDisabledChangesNothing : Obligations.StepDisabledChangesNothing := by
  intro s hp hdis
  refine step_of_not_enabled hp fun ⟨hactive, hrun, hwait⟩ => ?_
  rcases hdis with hna | hpaused | hwaiting
  · exact hna hactive
  · simp [hrun] at hpaused
  · simp [hwait] at hwaiting

end Sys2Proof.Machine

/-! PROOFS of the family 41_flow. A selected opcode decodes by `decode_of_selected`; an instruction that cannot fault
completes with its effect (`Completes.of_effect`), whose frame is the one of the operations it is made of. -/

namespace Sys2Proof.Machine

theorem Completes.of_effect {i : Instr} {s : State} {P : State → Prop} (hf : faultOf i s = none)
    (h : P (effect i s)) : Completes i s P :=
  ⟨effect i s, exec_of_no_fault hf, h⟩

/-! ## The stack (R25) -/

/-- An entry after a push: the one at the old `sp` holds the word, every other is as before. -/
theorem State.push_entry (s : State) (w : Word) (h : s.sp.val < 16) {k : Nat} (hk : k < 16) :
    (s.push w h).stack[k] = if k = s.sp.val then w else s.stack[k] := by
  simp only [State.push_stack, Vector.getElem_set, eq_comm]

theorem State.top_eq_entry {s : State} {k : Nat} (hk : k < 16) (h : s.sp.val = k + 1) : s.top = s.stack[k] := by
  simp only [State.top, h, Nat.add_sub_cancel]

theorem no_fault_of_room {s : State} (nnn : Imm12) (h : s.sp.val < 16) : faultOf (.call nnn) s = none :=
  if_neg h.ne

theorem no_fault_of_nonempty {s : State} (h : s.sp.val ≠ 0) : faultOf .ret s = none := if_neg h

/-- Settles O13: a call with room is a push of its own `pc` and a jump; a call with a full stack raises the overflow. -/
theorem callPushesAndJumps : Obligations.CallPushesAndJumps := by
  refine ⟨fun _ => decode_of_selected (i := .call 0#12) rfl, fun nnn s => ⟨fun hroom => ?_, fun hfull => ?_⟩⟩
  · refine .of_effect (no_fault_of_room nnn hroom) ?_
    rw [effect_call_of_room hroom]
    have hframe := (s.push_unchanged s.pc hroom).trans (State.setPc_unchanged _ (zext12 nnn))
    exact ⟨rfl, fun k hk => s.push_entry s.pc hroom hk, zext12_toNat nnn, hframe.mono (by simp)⟩
  · exact .of_raise (exec_call_of_full hfull)

/-- Settles O14: a return with an entry in use is a pop and a jump past the popped entry, which the pop leaves in place;
a return with an empty stack raises the underflow. -/
theorem returnPopsAndAdvances : Obligations.ReturnPopsAndAdvances := by
  refine ⟨fun _ => decode_of_selected (i := .ret) rfl, fun s => ⟨fun k hk hsp => ?_, fun hempty => ?_⟩⟩
  · have hframe := s.pop_unchanged.trans (State.setPc_unchanged _ (s.top + Config.retAdvance))
    refine .of_effect (no_fault_of_nonempty (by omega)) ⟨?_, fun _ _ => rfl, ?_, hframe.mono (by simp)⟩
    · exact Nat.sub_eq_of_eq_add hsp
    · exact congrArg (· + 2#16) (State.top_eq_entry hk hsp)
  · exact .of_raise (exec_ret_of_empty hempty)

/-- Settles O18: the return pops the entry that the call pushed, which is the `pc` of the call (R138). -/
theorem callThenReturnResumes : Obligations.CallThenReturnResumes := by
  intro nnn s hroom
  obtain ⟨t, hcall, htsp, htstack, -, htframe⟩ := (callPushesAndJumps.2 nnn s).1 hroom
  obtain ⟨u, hret, husp, hustack, hupc, huframe⟩ := (returnPopsAndAdvances.2 t).1 s.sp.val hroom htsp
  have hpushed : t.stack[s.sp.val] = s.pc := (htstack _ hroom).trans (if_pos rfl)
  have hframe := (htframe.trans huframe).mono (qs := [.pc, .stack]) (by simp)
  refine ⟨t, u, hcall, hret, hpushed ▸ hupc, Fin.ext husp, fun k hk hlt => ?_, hframe⟩
  rw [hustack k hk, htstack k hk, if_neg hlt.ne]

/-! ## Jumps -/

/-- Settles O11: the 12-bit operand, extended to `pc`, keeps its value. -/
theorem jumpSetsPc : Obligations.JumpSetsPc :=
  ⟨fun _ => decode_of_selected (i := .jp 0#12) rfl,
    fun nnn s => .of_effect rfl ⟨zext12_toNat nnn, s.setPc_unchanged _⟩⟩

/-- Settles O12: the sum is at most 0x10FE, so that 16 bits hold it. -/
theorem jumpV0AddsWithoutWrap : Obligations.JumpV0AddsWithoutWrap :=
  ⟨fun _ => decode_of_selected (i := .jpV0 0#12) rfl,
    fun nnn s => .of_effect rfl ⟨jumpV0Target_toNat nnn (s.getV 0#4), s.setPc_unchanged _⟩⟩

/-! ## Skips -/

/-- A skip on a condition completes, in every state: it moves `pc` by 4 or 2 and writes nothing else. -/
theorem completes_skip {i : Instr} {s : State} {c : Bool} {p : Prop} [Decidable p] (hf : faultOf i s = none)
    (he : effect i s = s.skipIf c) (hc : c = true ↔ p) :
    Completes i s fun t => t.pc = (if p then s.pc + 4#16 else s.pc + 2#16) ∧ unchangedBut [.pc] s t := by
  refine .of_effect hf ?_
  rw [he]
  refine ⟨?_, s.skipIf_unchanged c⟩
  simp only [State.skipIf_pc, hc, apply_ite (s.pc + ·)]

theorem beq_iff_toNat_eq {a b : Byte} : (a == b) = true ↔ a.toNat = b.toNat := beq_iff_eq.trans BitVec.toNat_eq

theorem bne_iff_toNat_ne {a b : Byte} : (a != b) = true ↔ a.toNat ≠ b.toNat :=
  bne_iff_ne.trans BitVec.toNat_ne_iff_ne.symm

/-- Settles O15: the two instructions skip on the test of `V[x]` with `nn`. -/
theorem skipOnImmediate : Obligations.SkipOnImmediate :=
  ⟨fun _ => decode_of_selected (i := .seImm 0#4 0#8) rfl, fun _ => decode_of_selected (i := .sneImm 0#4 0#8) rfl,
    fun _ _ _ => ⟨completes_skip rfl rfl beq_iff_toNat_eq, completes_skip rfl rfl bne_iff_toNat_ne⟩⟩

/-- The rows of the major opcodes 5 and 9 fix the low nibble to 0 (R136, R137). -/
theorem decode_eq_unmatched_of_fieldN_ne {op : Word} (ha : fieldA op = 0x5#4 ∨ fieldA op = 0x9#4)
    (hn : fieldN op ≠ 0#4) : decode op = .unmatched op := by
  rcases ha with ha | ha
  all_goals
    rw [decode, ha]
    exact if_neg hn

/-- Settles O16: the two instructions skip on the test of `V[x]` with `V[y]`. -/
theorem skipOnRegisters : Obligations.SkipOnRegisters :=
  ⟨fun _ => decode_of_selected (i := .seReg 0#4 0#4) rfl, fun _ => decode_of_selected (i := .sneReg 0#4 0#4) rfl,
    fun _ _ _ => ⟨fun _ => decode_eq_unmatched_of_fieldN_ne,
      completes_skip rfl rfl beq_iff_toNat_eq, completes_skip rfl rfl bne_iff_toNat_ne⟩⟩

end Sys2Proof.Machine

/-! PROOFS of the family 42_alu. None of these instructions can fault, so each completes with its effect: a write to
`V[x]`, or a write to `V[x]` and then the flag to `VF` (R151), and an advance. The two lemmas on these shapes give the
frame; an obligation adds what the value is. -/

namespace Sys2Proof.Machine

theorem Completes.imp {i : Instr} {s : State} {P Q : State → Prop} (h : Completes i s P) (hPQ : ∀ t, P t → Q t) :
    Completes i s Q := by
  obtain ⟨t, he, hP⟩ := h
  exact ⟨t, he, hPQ t hP⟩

/-! ## Registers that hold a result or a flag -/

theorem State.getV_setV_self (s : State) (x : Nib) (b : Byte) : (s.setV x b).getV x = b :=
  (s.getV_setV x b x).trans (if_pos rfl)

theorem State.getV_setResultFlag_vf (s : State) (x : Nib) (r f : Byte) : (s.setResultFlag x r f).getV vf = f :=
  State.getV_setV_self _ vf f

theorem State.getV_setResultFlag_self (s : State) {x : Nib} (r f : Byte) (h : x ≠ vf) :
    (s.setResultFlag x r f).getV x = r :=
  (State.getV_setV_of_ne _ f h).trans (s.getV_setV_self x r)

/-- An instruction whose effect is a write to `V[x]` and an advance writes no flag. -/
theorem completes_setV {i : Instr} {s : State} {x : Nib} {b : Byte} (hf : faultOf i s = none)
    (he : effect i s = (s.setV x b).advance) :
    Completes i s fun t =>
      t.getV x = b ∧ (∀ r, r ≠ x → t.getV r = s.getV r) ∧ t.pc = s.pc + 2#16 ∧ unchangedBut [.regs, .pc] s t := by
  refine .of_effect hf ?_
  rw [he]
  exact ⟨s.getV_setV_self x b, fun _ => s.getV_setV_of_ne b, rfl, (s.setV_unchanged x b).trans (State.advance_unchanged _)⟩

/-- An instruction whose effect is a result, then a flag and an advance: with `x = 15` the flag survives (R151). -/
theorem completes_setResultFlag {i : Instr} {s : State} {x : Nib} {b f : Byte} (hf : faultOf i s = none)
    (he : effect i s = (s.setResultFlag x b f).advance) :
    Completes i s fun t =>
      t.getV 15#4 = f ∧ (x ≠ 15#4 → t.getV x = b) ∧ (∀ r, r ≠ x → r ≠ 15#4 → t.getV r = s.getV r) ∧
      t.pc = s.pc + 2#16 ∧ unchangedBut [.regs, .pc] s t := by
  refine .of_effect hf ?_
  rw [he]
  exact ⟨s.getV_setResultFlag_vf x b f, s.getV_setResultFlag_self b f,
    fun _ hx hv => s.getV_setResultFlag_of_ne b f (not_or_intro hx hv), rfl,
    (s.setResultFlag_unchanged x b f).trans (State.advance_unchanged _)⟩

/-! ## Copy and bitwise instructions -/

/-- An instruction that writes to `V[x]` a byte computed bit by bit from `V[x]` and `V[y]`. -/
theorem completes_bitwise {i : Instr} {s : State} {x y : Nib} {b : Byte} {op : Bool → Bool → Bool}
    (hf : faultOf i s = none) (he : effect i s = (s.setV x b).advance)
    (hb : ∀ j, b.getLsbD j = op ((s.getV x).getLsbD j) ((s.getV y).getLsbD j)) :
    Completes i s fun t =>
      (∀ j, (t.getV x).getLsbD j = op ((s.getV x).getLsbD j) ((s.getV y).getLsbD j)) ∧
      (∀ r, r ≠ x → t.getV r = s.getV r) ∧ t.pc = s.pc + 2#16 ∧ unchangedBut [.regs, .pc] s t :=
  (completes_setV hf he).imp fun _ ⟨hx, hframe⟩ => ⟨fun j => hx ▸ hb j, hframe⟩

/-- Settles O20: the byte written is the copy, OR, AND or XOR of two bytes, of which the library gives each bit. -/
theorem copyAndBitwise : Obligations.CopyAndBitwise := by
  refine ⟨fun _ => decode_of_selected (i := .ldReg 0#4 0#4) rfl, fun _ => decode_of_selected (i := .orReg 0#4 0#4) rfl,
    fun _ => decode_of_selected (i := .andReg 0#4 0#4) rfl, fun _ => decode_of_selected (i := .xorReg 0#4 0#4) rfl,
    fun x y s => ?_⟩
  simp only [List.forall_mem_cons]
  exact ⟨completes_bitwise (op := fun _ b => b) rfl rfl fun _ => rfl,
    completes_bitwise rfl rfl fun _ => BitVec.getLsbD_or, completes_bitwise rfl rfl fun _ => BitVec.getLsbD_and,
    completes_bitwise rfl rfl fun _ => BitVec.getLsbD_xor, List.forall_mem_nil _⟩

/-! ## Immediates -/

/-- Settles O19: both are one write to `V[x]`, of `nn` or of the sum. -/
theorem loadAndAddImmediate : Obligations.LoadAndAddImmediate := by
  refine ⟨fun _ => decode_of_selected (i := .ldImm 0#4 0#8) rfl, fun _ => decode_of_selected (i := .addImm 0#4 0#8) rfl,
    fun x nn s => ⟨completes_setV rfl rfl, ?_⟩⟩
  exact (completes_setV rfl rfl).imp fun _ ⟨hx, hframe⟩ => ⟨hx ▸ addByte_toNat (s.getV x) nn, hframe⟩

/-! ## Sum and difference with their flags -/

theorem flagByte_decide (p : Prop) [Decidable p] : flagByte (decide p) = if p then 1#8 else 0#8 :=
  ite_congr decide_eq_true_eq (fun _ => rfl) fun _ => rfl

/-- Settles O21: the flag is the carry of the exact sum, computed before either write. -/
theorem addSetsCarry : Obligations.AddSetsCarry := by
  refine ⟨fun _ => decode_of_selected (i := .addReg 0#4 0#4) rfl, fun x y s => ?_⟩
  exact (completes_setResultFlag rfl rfl).imp fun _ ⟨hflag, hx, hframe⟩ =>
    ⟨hflag.trans (flagByte_decide _), fun hne => hx hne ▸ addByte_toNat (s.getV x) (s.getV y), hframe⟩

/-- `subByte_toNat` over the integers, where the difference of R150 is not cut off at 0. -/
theorem subByte_toNat_int (a b : Byte) : ((subByte a b).toNat : Int) = (a.toNat - b.toNat : Int) % 256 := by
  have := b.isLt
  rw [subByte_toNat]
  omega

/-- An instruction that subtracts `b` from `a` into `V[x]` and sets `VF` to the borrow. -/
theorem completes_subtract {i : Instr} {s : State} {x : Nib} {a b : Byte} (hf : faultOf i s = none)
    (he : effect i s = (s.setResultFlag x (subByte a b) (borrowFlag a b)).advance) :
    Completes i s fun t =>
      t.getV 15#4 = (if a.toNat < b.toNat then 1#8 else 0#8) ∧
      (x ≠ 15#4 → ((t.getV x).toNat : Int) = (a.toNat - b.toNat : Int) % 256) ∧
      (∀ r, r ≠ x → r ≠ 15#4 → t.getV r = s.getV r) ∧ t.pc = s.pc + 2#16 ∧ unchangedBut [.regs, .pc] s t :=
  (completes_setResultFlag hf he).imp fun _ ⟨hflag, hx, hframe⟩ =>
    ⟨hflag.trans (flagByte_decide _), fun hne => hx hne ▸ subByte_toNat_int a b, hframe⟩

/-- Settles O22: the two instructions differ in which of the two registers is the minuend. -/
theorem subtractSetsBorrow : Obligations.SubtractSetsBorrow :=
  ⟨fun _ => decode_of_selected (i := .subReg 0#4 0#4) rfl, fun _ => decode_of_selected (i := .subnReg 0#4 0#4) rfl,
    fun _ _ _ => ⟨completes_subtract rfl rfl, completes_subtract rfl rfl⟩⟩

/-! ## Shifts -/

/-- Settles O23: the source is `shiftSource`, whatever the configuration, and the flag its bit 0. -/
theorem shiftRightSetsLowBit : Obligations.ShiftRightSetsLowBit := by
  refine ⟨fun _ => decode_of_selected (i := .shr 0#4 0#4) rfl, fun x y s src hsrc => ?_⟩
  replace hsrc : src = s.shiftSource x y := hsrc
  subst hsrc
  exact (completes_setResultFlag rfl rfl).imp fun _ ⟨hflag, hx, hframe⟩ =>
    ⟨hflag ▸ lsbFlag_toNat _, fun hne => hx hne ▸ shrByte_toNat _, hframe⟩

/-- Settles O24: the source is `shiftSource`, whatever the configuration, and the flag its bit 7 left in place. -/
theorem shiftLeftSetsRawHighBit : Obligations.ShiftLeftSetsRawHighBit := by
  refine ⟨fun _ => decode_of_selected (i := .shl 0#4 0#4) rfl, fun x y s src hsrc => ?_⟩
  replace hsrc : src = s.shiftSource x y := hsrc
  subst hsrc
  exact (completes_setResultFlag rfl rfl).imp fun _ ⟨hflag, hx, hframe⟩ =>
    ⟨hflag.trans (msbFlag_eq _), fun hne => hx hne ▸ shlByte_toNat _, hframe⟩

/-! ## The free byte -/

/-- Settles O25: the draw moves the counter only, and the write is the AND of the byte drawn with `nn`. -/
theorem randomIsMaskedFreeByte : Obligations.RandomIsMaskedFreeByte := by
  refine ⟨fun _ => decode_of_selected (i := .rnd 0#4 0#8) rfl, fun x nn s => .of_effect rfl ?_⟩
  have hx : (effect (.rnd x nn) s).getV x = Config.rnd8 s.draws &&& nn := s.drawn.getV_setV_self x _
  refine ⟨fun j => ?_, rfl, fun _ => effect_getV (i := .rnd x nn) rfl, rfl, effect_unchanged (i := .rnd x nn) rfl⟩
  rw [hx, BitVec.getLsbD_and]

end Sys2Proof.Machine

/-! PROOFS of the family 43_index_memory. An instruction whose operand fits completes with its effect; past the bound it
raises its fault. What the effect writes is read back by the laws of `setI`, `storeBytes` and `loadBlock`; its frame is
`effect_unchanged` and `effect_readMem`. -/

namespace Sys2Proof.Machine

/-! ## The index register -/

/-- An instruction whose effect is a write to `I` and an advance. -/
theorem completes_setI {i : Instr} {s : State} {w : Word} (hf : faultOf i s = none)
    (he : effect i s = (s.setI w).advance) :
    Completes i s fun t => t.I = w ∧ t.pc = s.pc + 2#16 ∧ unchangedBut [.index, .pc] s t := by
  refine .of_effect hf ?_
  rw [he]
  exact ⟨rfl, rfl, (s.setI_unchanged w).trans (State.advance_unchanged _)⟩

/-- Settles O26: both are one write to `I`, of a value that 16 bits hold. -/
theorem loadIndexAndGlyphAddress : Obligations.LoadIndexAndGlyphAddress := by
  refine ⟨fun _ => decode_of_selected (i := .ldI 0#12) rfl, fun _ => decode_of_selected (i := .ldF 0#4) rfl,
    fun nnn s => ?_, fun x s => ?_⟩
  · exact (completes_setI rfl rfl).imp fun _ ⟨hI, hframe⟩ => ⟨hI ▸ zext12_toNat nnn, hframe⟩
  · exact (completes_setI rfl rfl).imp fun _ ⟨hI, hframe⟩ => ⟨hI ▸ glyphAddress_toNat (s.getV x), hframe⟩

/-- Settles O27: a sum that fits 16 bits is not reduced by the write to `I`; a greater one raises the overflow. -/
theorem addToIndexIsExact : Obligations.AddToIndexIsExact := by
  refine ⟨fun _ => decode_of_selected (i := .addI 0#4) rfl, fun x s => ⟨fun hfits => ?_, fun hover => ?_⟩⟩
  · have hsum : (BitVec.ofNat 16 (s.indexSum x)).toNat = s.indexSum x :=
      Nat.mod_eq_of_lt (Nat.lt_succ_of_le hfits)
    have hf : faultOf (.addI x) s = none := if_neg hfits.not_gt
    exact (completes_setI hf rfl).imp fun _ ⟨hI, hframe⟩ => ⟨hI ▸ hsum, hframe⟩
  · exact .of_raise (exec_addI_of_past hover)

/-! ## The digits of a byte -/

/-- The byte `k` past the start of the stored bytes reads as the one stored there. -/
theorem State.readMem_storeBytes_add (s : State) (a : Nat) {bs : List Byte} {k : Nat} (h : k < bs.length) :
    (s.storeBytes a bs).readMem (a + k) = bs[k] := by
  have hin : a ≤ a + k ∧ a + k < a + bs.length := by omega
  simp only [State.readMem_storeBytes, dif_pos hin, Nat.add_sub_cancel_left]

/-- Where FX33 does not fault, the byte `k` past `I` reads as the digit `k`, hundreds first (R183). -/
theorem effect_ldB_readMem (s : State) (x : Nib) {k : Nat} (hk : k < 3) :
    ((effect (.ldB x) s).readMem (s.I.toNat + k)).toNat =
      [(s.getV x).toNat / 100, (s.getV x).toNat / 10 % 10, (s.getV x).toNat % 10][k] := by
  have hlen : k < (bcdDigits (s.getV x)).length := hk
  have hread : (effect (.ldB x) s).readMem (s.I.toNat + k) = (bcdDigits (s.getV x))[k] :=
    s.readMem_storeBytes_add s.I.toNat hlen
  simp only [hread, ← bcdDigits_toNat, List.getElem_map]

/-- Settles O28: the three bytes at `I` are the digits, and the instruction writes no byte outside them. -/
theorem bcdStoresThreeDigits : Obligations.BcdStoresThreeDigits := by
  refine ⟨fun _ => decode_of_selected (i := .ldB 0#4) rfl, fun x s => ⟨fun hin => ?_, fun hpast => ?_⟩⟩
  · have hf : faultOf (.ldB x) s = none := if_neg hin.not_gt
    have hdigit := fun k (hk : k < 3) => effect_ldB_readMem s x hk
    refine .of_effect hf ⟨hdigit 0 (by decide), hdigit 1 (by decide), hdigit 2 (by decide),
      fun a ha => ?_, rfl, effect_unchanged hf⟩
    exact effect_readMem hf fun ⟨hge, hlt⟩ => ha.elim hge.not_gt hlt.not_ge
  · exact .of_raise (exec_ldB_of_past hpast)

/-! ## The register block -/

/-- Settles O29: the bytes at `I` are the registers of the block, and the instruction writes no byte outside them. -/
theorem storeRegistersAdvancesIndex : Obligations.StoreRegistersAdvancesIndex := by
  refine ⟨fun _ => decode_of_selected (i := .storeRegs 0#4) rfl, fun x s => ⟨fun hin => ?_, fun hpast => ?_⟩⟩
  · have hf : faultOf (.storeRegs x) s = none := if_neg hin.not_gt
    refine .of_effect hf ⟨fun r hr => effect_storeRegs_readMem s hr,
      fun a ha => ?_, s.indexAfterBlock_toNat x hin, rfl, effect_unchanged hf⟩
    exact effect_readMem hf fun ⟨hge, hlt⟩ => ha.elim hge.not_gt hlt.not_ge
  · exact .of_raise (exec_storeRegs_of_past hpast)

/-- Settles O30: a register of the block is the byte at its place past `I`; those above are as before. -/
theorem loadRegistersAdvancesIndex : Obligations.LoadRegistersAdvancesIndex := by
  refine ⟨fun _ => decode_of_selected (i := .loadRegs 0#4) rfl, fun x s => ⟨fun hin => ?_, fun hpast => ?_⟩⟩
  · have hf : faultOf (.loadRegs x) s = none := if_neg hin.not_gt
    exact .of_effect hf ⟨s.getV_loadBlock x, s.indexAfterBlock_toNat x hin, rfl, effect_unchanged hf⟩
  · exact .of_raise (exec_loadRegs_of_past hpast)

end Sys2Proof.Machine

/-! PROOFS of the family 44_display. What a draw does to the pixels is `drawSprite_spec`, stated here by what the sprite
at `I` hits; the second of two draws is the first draw's law again, in a state where the sprite hits the same pixels. -/

namespace Sys2Proof.Machine

/-- Settles O33: a clear leaves the blank grid. -/
theorem clearBlanksTheDisplay : Obligations.ClearBlanksTheDisplay :=
  ⟨fun _ => decode_of_selected (i := .cls) rfl,
    fun _ => .of_effect rfl ⟨pixel_blankGrid, rfl, rfl, effect_unchanged (i := .cls) rfl⟩⟩

/-! ## One draw -/

theorem flagByte_eq_zero_or_one (c : Bool) : flagByte c = 0#8 ∨ flagByte c = 1#8 := by cases c <;> decide

theorem flagByte_eq_one_iff (c : Bool) : flagByte c = 1#8 ↔ c = true := by cases c <;> decide

/-- What DXYN draws, by what the sprite at `I` hits (R202, R203). -/
theorem State.displayDraw_spec (s : State) (x y : Byte) (n : Nib) :
    (∀ row col, s.spriteHits x y n.toNat row col →
      pixel (s.displayDraw x y (s.spriteRows n)).px row col = !pixel s.px row col) ∧
    (∀ row col, ¬ s.spriteHits x y n.toNat row col →
      pixel (s.displayDraw x y (s.spriteRows n)).px row col = pixel s.px row col) ∧
    (s.displayCollision x y (s.spriteRows n) = true ↔
      ∃ row col, s.spriteHits x y n.toNat row col ∧ pixel s.px row col = true) := by
  have hn : (s.spriteRows n).length ≤ 32 := by
    have := n.isLt
    rw [State.length_spriteRows]
    omega
  simpa only [rowsHit_spriteRows, State.displayDraw_px, State.displayCollision] using
    drawSprite_spec x y (s.spriteRows n) hn s.px

/-- Settles O34: in range the pixels and the collision are those of the draw; past the end of memory the draw faults. -/
theorem drawTogglesAddressedPixels : Obligations.DrawTogglesAddressedPixels := by
  refine ⟨fun _ => decode_of_selected (i := .drw 0#4 0#4 0#4) rfl, fun x y n s => ⟨fun hin => ?_, fun hpast => ?_⟩⟩
  · have hf : faultOf (.drw x y n) s = none := if_neg hin.not_gt
    obtain ⟨hhit, hmiss, hcoll⟩ := s.displayDraw_spec (s.getV x) (s.getV y) n
    have hflag : (effect (.drw x y n) s).getV 15#4 =
        flagByte (s.displayCollision (s.getV x) (s.getV y) (s.spriteRows n)) := State.getV_setV_self _ vf _
    refine .of_effect hf ⟨hhit, hmiss, ?_, ?_, fun _ => effect_getV hf, rfl, rfl, effect_unchanged hf⟩
    · exact hflag ▸ flagByte_eq_zero_or_one _
    · rw [hflag, flagByte_eq_one_iff, hcoll]
  · exact .of_raise (exec_drw_of_past hpast)

/-! ## The same draw twice (R207) -/

/-- A sprite hits the same pixels wherever `I` and memory read alike. -/
theorem State.spriteHits_of_unchanged {s t : State} {ps : List Part} (h : unchangedBut ps s t)
    (hI : Part.index ∉ ps) (hm : Part.memory ∉ ps) : t.spriteHits = s.spriteHits := by
  have hidx : t.I = s.I := h .index hI
  have hmem : ∀ a, t.readMem a = s.readMem a := h .memory hm
  unfold State.spriteHits
  simp only [hidx, hmem]

/-- Settles O35: the first draw moves neither the coordinates nor the sprite, so that the second toggles the same pixels
back, and those it finds set are those that the first found 0. -/
theorem drawTwiceRestoresThePixels : Obligations.DrawTwiceRestoresThePixels := by
  intro x y n s hx hy hin
  obtain ⟨t, hdraw, hhit, hmiss, -, -, hreg, htdirty, -, hframe⟩ := (drawTogglesAddressedPixels.2 x y n s).1 hin
  have hI : t.I = s.I := hframe .index (by simp)
  obtain ⟨u, hagain, hhit', hmiss', -, hflag, -, hudirty, -, -⟩ :=
    (drawTogglesAddressedPixels.2 x y n t).1 (hI ▸ hin)
  rw [State.spriteHits_of_unchanged hframe (by simp) (by simp), hreg x hx, hreg y hy] at hhit' hmiss' hflag
  refine ⟨t, u, hdraw, hagain, fun row col => ?_, htdirty, hudirty, ?_⟩
  · by_cases h : s.spriteHits (s.getV x) (s.getV y) n.toNat row col
    · rw [hhit' row col h, hhit row col h, Bool.not_not]
    · rw [hmiss' row col h, hmiss row col h]
  · have hfound : ∀ row col, s.spriteHits (s.getV x) (s.getV y) n.toNat row col →
        (pixel t.px row col = true ↔ pixel s.px row col = false) := fun row col h => by
      rw [hhit row col h, Bool.not_eq_true']
    exact hflag.trans (exists₂_congr fun row col => and_congr_right (hfound row col))

end Sys2Proof.Machine

/-! PROOFS of the family 45_keypad_timers. What `EndWait`, `Tick` and the events of a waiting core do, said once each.
The key skips and the timer instructions are the shapes of a skip, of a write to `V[x]` and of a write to a timer. -/

namespace Sys2Proof.Machine

/-! ## The key skips (R223, R224) -/

theorem keyIndex_eq_of_toNat_eq {v : Byte} {k : Nib} (h : v.toNat = k.toNat) : keyIndex v = k := by
  apply BitVec.eq_of_toNat_eq
  rw [keyIndex, BitVec.toNat_setWidth, h]
  exact Nat.mod_eq_of_lt k.isLt

/-- Settles O36: a value that is a key index is the index of that key, and every greater one raises the fault. -/
theorem skipOnKeyState : Obligations.SkipOnKeyState := by
  refine ⟨fun _ => decode_of_selected (i := .skp 0#4) rfl, fun _ => decode_of_selected (i := .sknp 0#4) rfl,
    fun x s => ⟨fun k hk => ?_, fun hpast => ?_⟩⟩
  · have hle : ¬ (s.getV x).toNat > 15 := by have := k.isLt; omega
    have hkey : keyIndex (s.getV x) = k := keyIndex_eq_of_toNat_eq hk
    subst hkey
    exact ⟨completes_skip (i := .skp x) (if_neg hle) rfl beq_iff_eq,
      completes_skip (i := .sknp x) (if_neg hle) rfl beq_iff_eq⟩
  · exact ⟨.of_raise (exec_skp_of_past hpast), .of_raise (exec_sknp_of_past hpast)⟩

/-! ## The timers (R228 to R232) -/

theorem State.beep_iff (s : State) : s.beep = true ↔ s.ST ≠ 0#8 := bne_iff_ne

/-- Settles O38: FX07 is a write to `V[x]`, the other two a write to a timer; the beep level is read off `ST`. -/
theorem timerInstructionsMoveBytes : Obligations.TimerInstructionsMoveBytes := by
  refine ⟨fun _ => decode_of_selected (i := .ldVxDt 0#4) rfl, fun _ => decode_of_selected (i := .ldDt 0#4) rfl,
    fun _ => decode_of_selected (i := .ldSt 0#4) rfl, fun x s => ⟨completes_setV rfl rfl, ?_, ?_⟩⟩
  · exact .of_effect rfl ⟨rfl, rfl, effect_unchanged (i := .ldDt x) rfl⟩
  · exact .of_effect rfl ⟨rfl, State.beep_iff _, rfl, effect_unchanged (i := .ldSt x) rfl⟩

/-- On numbers, where a difference is cut off at 0, the countdown is a subtraction. -/
theorem countDown_toNat (b : Byte) : (countDown b).toNat = b.toNat - 1 := by
  unfold countDown
  split
  · next h => rw [h]; rfl
  · bv_omega

theorem State.tick_of_enabled {s : State} (h : s.tickEnabled) :
    s.tick = (s.setDT (countDown s.DT)).setST (countDown s.ST) :=
  if_pos (by simpa [State.isActive_iff] using h)

theorem State.tick_of_not_enabled {s : State} (h : ¬ s.tickEnabled) : s.tick = s :=
  if_neg (by simpa [State.isActive_iff] using h)

theorem State.tick_unchanged (s : State) : unchangedBut [.delayTimer, .soundTimer] s s.tick := by
  by_cases h : s.tickEnabled
  · rw [State.tick_of_enabled h]
    exact (s.setDT_unchanged _).trans (State.setST_unchanged _ _)
  · rw [State.tick_of_not_enabled h]
    exact unchangedBut_refl _ s

/-- Settles O39: the tick is two countdowns where it is enabled, and nothing elsewhere. -/
theorem tickCountsDownToZero : Obligations.TickCountsDownToZero := by
  refine fun s => ⟨s.tick, rfl, fun h => ⟨?_, ?_, s.tick_unchanged⟩, fun h => ?_⟩
  · rw [State.tick_of_enabled h]
    exact countDown_toNat s.DT
  · rw [State.tick_of_enabled h]
    exact countDown_toNat s.ST
  · rw [State.tick_of_not_enabled h]
    exact unchangedBut_refl [] s

/-! ## The end of a wait (R226) -/

theorem State.endWait_of_waiting {s : State} (hw : s.wait.active = true) (k : Nib) :
    s.endWait k =
      ((s.setV s.wait.target (k.setWidth 8)).setWait { s.wait with active := false }).advance :=
  if_pos hw

theorem State.endWait_of_not_waiting {s : State} (hw : s.wait.active = false) (k : Nib) :
    s.endWait k = s.emit (.diag .spuriousEndWait (k.setWidth 16)) :=
  if_neg (Bool.eq_false_iff.mp hw)

section
variable {s : State} (hw : s.wait.active = true) (k : Nib)
include hw

theorem State.endWait_getV (r : Nib) :
    (s.endWait k).getV r = if r = s.wait.target then k.setWidth 8 else s.getV r := by
  rw [State.endWait_of_waiting hw]
  exact s.getV_setV s.wait.target (k.setWidth 8) r

theorem State.endWait_getV_target : ((s.endWait k).getV s.wait.target).toNat = k.toNat := by
  rw [State.endWait_getV hw, if_pos rfl]
  exact BitVec.toNat_setWidth_of_le (by decide)

theorem State.endWait_wait_active : (s.endWait k).wait.active = false := by
  rw [State.endWait_of_waiting hw]
  rfl

theorem State.endWait_wait_target : (s.endWait k).wait.target = s.wait.target := by
  rw [State.endWait_of_waiting hw]
  rfl

theorem State.endWait_pc : (s.endWait k).pc = s.pc + 2#16 := by
  rw [State.endWait_of_waiting hw]
  rfl

theorem State.endWait_unchanged : unchangedBut [.regs, .wait, .pc] s (s.endWait k) := by
  rw [State.endWait_of_waiting hw]
  exact ((s.setV_unchanged _ _).trans (State.setWait_unchanged _ _)).trans (State.advance_unchanged _)

end

/-- Settles O40: waiting, `EndWait` is a write to the target, the end of the wait and an advance; else it records
the diagnostic. -/
theorem endWaitDeliversTheKey : Obligations.EndWaitDeliversTheKey := by
  refine fun k s => ⟨fun hw => ?_, fun hw => ?_⟩
  · exact ⟨State.endWait_getV_target hw k, fun r hr => (State.endWait_getV hw k r).trans (if_neg hr),
      State.endWait_wait_active hw k, State.endWait_wait_target hw k, State.endWait_pc hw k,
      State.endWait_unchanged hw k⟩
  · rw [State.endWait_of_not_waiting hw]
    exact ⟨rfl, s.emit_unchanged _⟩

/-! ## The events of a waiting core (R117, R227, R253, R254) -/

section
variable {s : State} (hw : s.wait.active = true)
include hw

theorem stepEvent_of_waiting : stepEvent s = .next s := by
  have hne : ¬ s.stepEnabled := fun ⟨_, _, hnw⟩ => by simp [hw] at hnw
  rcases stepEvent_cases s with ⟨-, he⟩ | ⟨he, -⟩ | ⟨he, -⟩
  · exact he
  · exact absurd he hne
  · exact absurd he hne

theorem execEvent_of_waiting (op : Word) : execEvent op s = .next s := by
  rcases execEvent_cases s op with he | ⟨hnw, -⟩
  · exact he
  · simp [hw] at hnw

theorem State.keyPressed_of_waiting (ha : s.status = .active) {k : Nib} (hk : s.lastKey ≠ some k) :
    s.keyPressed k = (s.endWait k).setLastKey (some k) := by
  simp [State.keyPressed, State.isActive, ha, hw, hk]

theorem State.keyReleased_of_waiting (ha : s.status = .active) (k : Nib) : s.keyReleased k = s.setLastKey none := by
  simp [State.keyReleased, State.isActive, ha, hw]

end

/-- Before the first instruction since reset no core waits (R258). -/
theorem State.Inv.started_of_waiting {s : State} (hi : s.Inv) (hw : s.wait.active = true) : s.started = true := by
  by_contra hns
  have hnw := (hi.notStarted (Bool.eq_false_iff.mpr hns)).2
  simp [hw] at hnw

theorem State.load_of_started {s : State} (h : s.started = true) (bytes : List Byte) : s.load bytes = s :=
  if_pos (by simp [h])

section
variable (s : State)

theorem State.setLastKey_unchanged (k : Option Nib) : unchangedBut [.lastKey] s (s.setLastKey k) := by
  intro p hp
  cases p <;> simp_all [Part.same]

theorem State.setRun_unchanged (b : Bool) : unchangedBut [.run] s (s.setRun b) := by
  intro p hp
  cases p <;> simp_all [Part.same]

theorem State.quit_unchanged : unchangedBut [.status] s s.quit := by
  unfold State.quit
  split
  · exact s.setStatus_unchanged .finished
  · exact unchangedBut_refl _ s

theorem State.consume_unchanged : unchangedBut [.dirty, .outputs] s s.consume := by
  unfold State.consume
  split
  · intro p hp
    cases p with
    | dirty | outputs => simp at hp
    | regs | memory | keypad => exact fun _ => rfl
    | pixels => exact fun _ _ => rfl
    | stack => exact ⟨rfl, fun _ _ => rfl⟩
    | _ => rfl
  · exact unchangedBut_refl _ s

end

/-- Settles O37: FX0A writes the wait alone, and a core that waits ignores a `Step`. -/
theorem waitForKeyHoldsPc : Obligations.WaitForKeyHoldsPc :=
  ⟨fun _ => decode_of_selected (i := .ldKey 0#4) rfl,
    fun x _ => .of_effect rfl ⟨rfl, rfl, effect_unchanged (i := .ldKey x) rfl, stepEvent_of_waiting rfl⟩⟩

/-- Settles O41: FX0A leaves a waiting core whose last key is not `k`, so that the press is the end of the wait. -/
theorem keyPressCompletesTheWait : Obligations.KeyPressCompletesTheWait := by
  intro x k s ha hk
  obtain ⟨t, hexec, hw, htarget, hframe, -⟩ := waitForKeyHoldsPc.2 x s
  have hta : t.status = .active := (hframe .status (by simp)).trans ha
  have htk : t.lastKey ≠ some k := fun h => hk ((hframe .lastKey (by simp)).symm.trans h)
  have htpc : t.pc = s.pc := hframe .pc (by simp)
  have htkey : ∀ j, t.keypadGet j = s.keypadGet j := hframe .keypad (by simp)
  have hendkey : ∀ j, (t.endWait k).keypadGet j = t.keypadGet j := State.endWait_unchanged hw k .keypad (by simp)
  refine ⟨t, (t.endWait k).setLastKey (some k), hexec,
    congrArg Host.Outcome.next (State.keyPressed_of_waiting hw hta htk), ?_, ?_, ?_, rfl,
    fun j => (hendkey j).trans (htkey j)⟩
  · exact htarget ▸ State.endWait_getV_target hw k
  · exact htpc ▸ State.endWait_pc hw k
  · exact State.endWait_wait_active hw k

/-- Settles O42, event by event: a waiting core ignores `Step` and `Exec`, and has started, so no `Load` is admitted;
each other event writes only parts of the list. -/
theorem waitEndsOnlyByPressOrReset : Obligations.WaitEndsOnlyByPressOrReset := by
  intro s t e hi ha hw hreset hpress h
  cases e with
  | step =>
    cases h.symm.trans (stepEvent_of_waiting hw)
    exact unchangedBut_refl _ s
  | exec op =>
    cases h.symm.trans (execEvent_of_waiting hw op)
    exact unchangedBut_refl _ s
  | tick => cases h; exact s.tick_unchanged.mono (by simp)
  | run b => cases h; exact (s.setRun_unchanged b).mono (by simp)
  | quit => cases h; exact s.quit_unchanged.mono (by simp)
  | consume => cases h; exact s.consume_unchanged.mono (by simp)
  | load bytes =>
    cases h
    rw [State.load_of_started (hi.started_of_waiting hw)]
    exact unchangedBut_refl _ s
  | reset => exact absurd rfl hreset
  | key k ks =>
    cases ks with
    | pressed => exact absurd rfl (hpress k)
    | released =>
      cases h
      rw [State.keyReleased_of_waiting hw ha]
      exact (s.setLastKey_unchanged none).mono (by simp)

end Sys2Proof.Machine

/-! PROOFS of the family 46_host_interface. Each event of the host answers by its admission: one lemma for the state it
leaves where it is admitted, one that says it changes nothing elsewhere. -/

namespace Sys2Proof.Machine

/-- Settles O9: the step handles the head of the pending events. -/
theorem stepTakesThePendingEvent : Obligations.StepTakesThePendingEvent := fun _ _ _ hp => step_of_pending hp

theorem unchangedBut_of_eq {s t : State} (ps : List Part) (h : t = s) : unchangedBut ps s t :=
  h ▸ unchangedBut_refl ps s

/-! ## `Run`, `Reset` and `Quit` (R255 to R257) -/

/-- Settles O51: the level is written whatever the status. -/
theorem runSetsOnlyTheLevel : Obligations.RunSetsOnlyTheLevel := fun b s =>
  ⟨s.setRun b, rfl, rfl, s.setRun_unchanged b⟩

/-- The fields that `Reset` keeps hold no reset value; the others are as at creation with the same configuration. -/
theorem State.doReset_hasResetValues (s : State) : s.doReset.HasResetValues :=
  { State.create_hasResetValues s.cfg with }

/-- Settles O45: the core is as created, with its own configuration and level. -/
theorem resetRestoresEveryValue : Obligations.ResetRestoresEveryValue := fun s =>
  ⟨s.doReset, rfl, s.doReset_hasResetValues, rfl, rfl⟩

theorem State.quit_of_active {s : State} (ha : s.status = .active) : s.quit = s.setStatus .finished :=
  if_pos (s.isActive_iff.mpr ha)

theorem State.quit_of_inactive {s : State} (hna : s.status ≠ .active) : s.quit = s :=
  if_neg (mt s.isActive_iff.mp hna)

/-- Settles O47: an active core takes the status, every other stays as it is. -/
theorem quitFinishesAnActiveCore : Obligations.QuitFinishesAnActiveCore := by
  refine fun s => ⟨s.quit, rfl, fun ha => ⟨?_, s.quit_unchanged⟩, fun hna => ?_⟩
  · rw [State.quit_of_active ha]
    rfl
  · exact unchangedBut_of_eq [] (State.quit_of_inactive hna)

/-! ## The keys (R253, R254) -/

theorem State.keypadSet_unchanged (s : State) (k : Nib) (ks : KeyState) :
    unchangedBut [.keypad] s (s.keypadSet k ks) := by
  intro p hp
  cases p <;> simp_all [Part.same]

section
variable {s : State} (k : Nib)

theorem State.keyPressed_of_inactive (hna : s.status ≠ .active) : s.keyPressed k = s :=
  if_pos (by simp [State.isActive, hna])

theorem State.keyPressed_of_not_waiting (ha : s.status = .active) (hw : s.wait.active = false) :
    s.keyPressed k = s.keypadSet k .pressed := by
  simp [State.keyPressed, State.isActive, ha, hw]

/-- The key that resolved the last wait does not resolve the next one before it is released. -/
theorem State.keyPressed_of_lastKey (hw : s.wait.active = true) (hk : s.lastKey = some k) : s.keyPressed k = s := by
  simp [State.keyPressed, hw, hk]

theorem State.keyReleased_of_inactive (hna : s.status ≠ .active) : s.keyReleased k = s :=
  if_pos (by simp [State.isActive, hna])

theorem State.keyReleased_of_not_waiting (ha : s.status = .active) (hw : s.wait.active = false) :
    s.keyReleased k = s.keypadSet k .released := by
  simp [State.keyReleased, State.isActive, ha, hw]

end

/-- Settles O43: a press is a write to the keypad, or the end of the wait with the key recorded, or nothing. -/
theorem keyPressByWaitAndLastKey : Obligations.KeyPressByWaitAndLastKey := by
  refine fun k s => ⟨s.keyPressed k, rfl, fun hna => ?_, fun ha hw => ?_, fun ha hw hk => ?_, fun _ hw hk => ?_⟩
  · exact unchangedBut_of_eq [] (State.keyPressed_of_inactive k hna)
  · rw [State.keyPressed_of_not_waiting k ha hw]
    exact ⟨s.keypadGet_keypadSet k .pressed, s.keypadSet_unchanged k .pressed⟩
  · rw [State.keyPressed_of_waiting hw ha hk]
    exact ⟨State.endWait_getV_target hw k, fun r hr => (State.endWait_getV hw k r).trans (if_neg hr),
      State.endWait_wait_active hw k, State.endWait_wait_target hw k, State.endWait_pc hw k, rfl,
      (State.endWait_unchanged hw k).trans (State.setLastKey_unchanged _ (some k))⟩
  · exact unchangedBut_of_eq [] (State.keyPressed_of_lastKey k hw hk)

/-- Settles O44: a release is a write to the keypad, or to `last_key`, or nothing. -/
theorem keyReleaseByWait : Obligations.KeyReleaseByWait := by
  refine fun k s => ⟨s.keyReleased k, rfl, fun hna => ?_, fun ha hw => ?_, fun ha hw => ?_⟩
  · exact unchangedBut_of_eq [] (State.keyReleased_of_inactive k hna)
  · rw [State.keyReleased_of_not_waiting k ha hw]
    exact ⟨s.keypadGet_keypadSet k .released, s.keypadSet_unchanged k .released⟩
  · rw [State.keyReleased_of_waiting hw ha]
    exact ⟨rfl, s.setLastKey_unchanged none⟩

/-! ## `Load` (R258, R288) -/

section
variable {s : State} {bytes : List Byte}

theorem State.load_of_fits (ha : s.status = .active) (hs : s.started = false) (hlen : bytes.length ≤ 3584) :
    s.load bytes = s.storeBytes 0x200 bytes := by
  simp [State.load, State.isActive, ha, hs, hlen]

theorem State.load_of_too_long (ha : s.status = .active) (hs : s.started = false) (hlen : bytes.length > 3584) :
    s.load bytes = s.emit (.loadRange bytes.length) := by
  simp [State.load, State.isActive, ha, hs, hlen]

theorem State.load_of_inactive (hna : s.status ≠ .active) : s.load bytes = s :=
  if_pos (by simp [State.isActive, hna])

end

/-- Settles O48: a program that fits is one store at 0x200, a longer one only the refusal. -/
theorem loadWritesTheProgramOrNothing : Obligations.LoadWritesTheProgramOrNothing := by
  refine fun bytes s => ⟨s.load bytes, rfl, fun ha hs hlen => ?_, fun ha hs hlen => ?_, fun hnot => ?_⟩
  · rw [State.load_of_fits ha hs hlen]
    exact ⟨fun j hj => s.readMem_storeBytes_add 0x200 hj, fun a hout => State.readMem_storeBytes_outside hout,
      s.storeBytes_unchanged 0x200 bytes⟩
  · rw [State.load_of_too_long ha hs hlen]
    exact ⟨rfl, rfl, s.emit_unchanged _⟩
  · exact unchangedBut_of_eq [] (hnot.elim State.load_of_inactive (State.load_of_started · bytes))

/-! ## `Consume` (R259) -/

theorem State.consume_of_dirty {s : State} (ha : s.status = .active) (hd : s.dirty = true) :
    s.consume = { s.emit (.snapshot s.px) with dirty := false } :=
  if_pos (by simp [State.isActive, ha, hd])

theorem State.consume_of_not_admitted {s : State} (h : s.status ≠ .active ∨ s.dirty = false) : s.consume = s :=
  if_neg (by rcases h with hna | hd <;> simp [State.isActive, *])

/-- Settles O49: the snapshot is recorded and the flag cleared in the one case where there is something to deliver. -/
theorem consumeDeliversAndClearsDirty : Obligations.ConsumeDeliversAndClearsDirty := by
  refine fun s => ⟨s.consume, rfl, fun ha hd => ⟨?_, ?_, s.consume_unchanged⟩, fun hnot => ?_⟩
  · rw [State.consume_of_dirty ha hd]
    rfl
  · rw [State.consume_of_dirty ha hd]
  · exact unchangedBut_of_eq [] (State.consume_of_not_admitted hnot)

/-! ## `Exec` (R262) -/

section
variable {s : State} (op : Word)

theorem execEvent_of_admitted (ha : s.status = .active) (hw : s.wait.active = false) (hpc : s.pc.toNat < 4094) :
    execEvent op s = exec (decode op) s.begin :=
  if_pos (by simp [State.isActive, ha, hw, hpc])

theorem execEvent_of_inactive (hna : s.status ≠ .active) : execEvent op s = .next s :=
  if_neg (by simp [State.isActive, hna])

theorem execEvent_of_fetchLimit (hpc : 4094 ≤ s.pc.toNat) : execEvent op s = .next s :=
  if_neg (by simp [hpc])

end

/-- Settles O50: each of the three disjuncts denies one condition of admission. -/
theorem execRunsTheGivenOpcode : Obligations.ExecRunsTheGivenOpcode := by
  refine fun op s => ⟨execEvent_of_admitted op, fun hnot => ?_⟩
  rcases hnot with hna | hw | hpc
  · exact execEvent_of_inactive op hna
  · exact execEvent_of_waiting hw op
  · exact execEvent_of_fetchLimit op hpc

/-! ## A core that is not active (R264) -/

theorem stepEvent_of_inactive {s : State} (hna : s.status ≠ .active) : stepEvent s = .next s :=
  if_pos (by simp [State.isActive, hna])

/-- Settles O52, event by event. -/
theorem inactiveCoreIsFrozen : Obligations.InactiveCoreIsFrozen := by
  refine fun s hna => ⟨fun e hreset hrun => ?_, fun b => runSetsOnlyTheLevel b s, s.doReset, rfl, rfl⟩
  cases e with
  | step => exact stepEvent_of_inactive hna
  | exec op => exact execEvent_of_inactive op hna
  | tick => exact congrArg Host.Outcome.next (State.tick_of_not_enabled fun h => hna h.1)
  | quit => exact congrArg Host.Outcome.next (State.quit_of_inactive hna)
  | load bytes => exact congrArg Host.Outcome.next (State.load_of_inactive hna)
  | consume => exact congrArg Host.Outcome.next (State.consume_of_not_admitted (.inl hna))
  | key k ks =>
    cases ks with
    | pressed => exact congrArg Host.Outcome.next (State.keyPressed_of_inactive k hna)
    | released => exact congrArg Host.Outcome.next (State.keyReleased_of_inactive k hna)
  | run b => exact absurd rfl (hrun b)
  | reset => exact absurd rfl hreset

end Sys2Proof.Machine

/-! PROOFS of the family 60_exceptions. `exec_of_fault` and `exec_of_no_fault` say that an instruction answers by its row
of the table of R281; what is added here is that the effect of an instruction leaves `status` to the fault entry. -/

namespace Sys2Proof.Machine

/-- An instruction has no write of its own to `status` (R38): it enters a fault (R285), or leaves the status alone. -/
theorem status_notMem_partsWritten (i : Instr) : Part.status ∉ partsWritten i := by cases i <;> simp [partsWritten]

theorem effect_status {i : Instr} {s : State} (hf : faultOf i s = none) : (effect i s).status = s.status :=
  effect_unchanged hf .status (status_notMem_partsWritten i)

/-- Settles O54: a row whose condition holds raises its fault, and without a fault the effect leaves `status`. -/
theorem faultsExactlyByTheTable : Obligations.FaultsExactlyByTheTable := by
  refine ⟨fun _ _ _ => ⟨rfl, rfl, rfl, rfl, rfl⟩, fun i s => ⟨fun f hf => ?_, fun hf => ?_⟩⟩
  · exact Faults.of_raise (exec_of_fault hf)
  · exact Completes.of_effect hf (effect_status hf)

end Sys2Proof.Machine

/-! PROOFS of the family 70_reset_and_hazards. The boot order of R324 as one state, `State.booted`: three steps reach it
when reset, load and run are pending, and its program counter stands at the first loaded byte. -/

namespace Sys2Proof.Machine

/-- The core after the host's boot order (R324): reset, the program stored at 0x200, the level `run` set. -/
def State.booted (s : State) (program : List Byte) : State :=
  ((s.doReset.storeBytes 0x200 program).setRun true).setPending []

/-- A run goes on from the state that its first step leaves. -/
theorem run_succ_of_next {M : Host.Core} {s t : M.State} (h : M.step s = .next t) (k : Nat) :
    M.run (k + 1) s = M.run k t := by
  simp only [Host.Core.run, h]

section
variable {s : State} {program : List Byte}

@[simp] theorem State.booted_pc : (s.booted program).pc = 0x0200#16 := rfl
@[simp] theorem State.booted_pending : (s.booted program).pending = [] := rfl

theorem State.booted_stepEnabled : (s.booted program).stepEnabled := ⟨rfl, rfl, rfl⟩

/-- The steps handle `Reset`, `Load` and `Run`, in that order. `Reset` makes the core active with nothing started, which
is what admits the `Load` (R258). -/
theorem core_run_boot (hlen : program.length ≤ 3584) (hp : s.pending = [.reset, .load program, .run true]) :
    core.run 3 s = .next (s.booted program) := by
  have hreset : step s = .next (s.doReset.setPending [.load program, .run true]) := step_of_pending hp
  have hload : step (s.doReset.setPending [.load program, .run true]) =
      .next ((s.doReset.setPending [.run true]).load program) := step_of_pending (e := .load program) rfl
  have hfits : (s.doReset.setPending [.run true]).load program =
      (s.doReset.setPending [.run true]).storeBytes 0x200 program := State.load_of_fits rfl rfl hlen
  have hrun : step ((s.doReset.setPending [.run true]).storeBytes 0x200 program) = .next (s.booted program) :=
    step_of_pending (e := .run true) rfl
  calc core.run 3 s
      = core.run 2 (s.doReset.setPending [.load program, .run true]) := run_succ_of_next hreset 2
    _ = core.run 1 ((s.doReset.setPending [.run true]).storeBytes 0x200 program) :=
        run_succ_of_next (hfits ▸ hload) 1
    _ = .next (s.booted program) := run_succ_of_next hrun 0

end

/-- The first two bytes of the program are the opcode at the reset program counter (R112). -/
theorem State.booted_fetchWord (s : State) (hi lo : Byte) (rest : List Byte) :
    (s.booted (hi :: lo :: rest)).fetchWord = wordOfBytes hi lo := by
  have hhi : (s.booted (hi :: lo :: rest)).readMem 0x200 = hi :=
    s.doReset.readMem_storeBytes_add 0x200 (bs := hi :: lo :: rest) (k := 0) (by simp)
  have hlo : (s.booted (hi :: lo :: rest)).readMem 0x201 = lo :=
    s.doReset.readMem_storeBytes_add 0x200 (bs := hi :: lo :: rest) (k := 1) (by simp)
  exact congrArg₂ wordOfBytes hhi hlo

/-- Settles O53: the boot order leads to `State.booted`, which fetches the first two bytes of the program. -/
theorem bootRunsTheLoadedProgram : Obligations.BootRunsTheLoadedProgram := by
  intro s hi lo rest hlen hp
  refine ⟨s.booted (hi :: lo :: rest), core_run_boot hlen hp, State.booted_pc, State.booted_stepEnabled,
    State.booted_pending, ?_⟩
  have hpc : (s.booted (hi :: lo :: rest)).pc.toNat < 4094 := by rw [State.booted_pc]; decide
  rw [step_of_enabled State.booted_pending State.booted_stepEnabled hpc, State.booted_fetchWord, State.begin]

end Sys2Proof.Machine
